-- ==== Sys2Proof/Word.lean ====
section
/-! DEFINITION. The word types of the model: what the manual treats as bits. -/

namespace Sys2Proof

/-- One byte of memory. -/
abbrev Byte := BitVec 8

/-- A register or descriptor word: registers are 64 bits wide and little-endian (R15). -/
abbrev Word := BitVec 64

/-- An FP32 word (R97). -/
abbrev F32 := BitVec 32

end Sys2Proof
end

