-- ==== Sys2Proof/Syntax.lean ====
section
/-! DEFINITION. The commands the package takes: one constructor of `Instr` per row of the table of
operations and events, with the row's operands.  Wall-clock time, sensor readings, lane and ECC
outcomes and everything else that the outside world decides enter as operands. -/

namespace Sys2Proof

/-- A logical core (R6). -/
abbrev CoreId := Fin 144
/-- A context of a core (R127). -/
abbrev CtxId := Fin 2
/-- A die (R20). -/
abbrev DieId := Fin 4
/-- A torus port (R327). -/
abbrev PortId := Fin 12
/-- A lane of a torus port (R326). -/
abbrev LaneId := Fin 4
/-- An Ethernet port (R385). -/
abbrev EthId := Fin 4
/-- An HBM stack (R292). -/
abbrev StackId := Fin 20
/-- A pseudo-channel of a stack (R292). -/
abbrev PchId := Fin 32
/-- An island with a PWR page (R429). -/
abbrev IslandId := Fin 36
/-- An HCQ queue. -/
abbrev QueueId := Fin 16
/-- A collective axis: 0 X, 1 Y, 2 Z. -/
abbrev AxisId := Fin 3
/-- A virtual channel (R340). -/
abbrev VcId := Fin 4
/-- A crossing of a die, in the XING code of R475. -/
abbrev XingId := Fin 13
/-- A UCIe link: 0 D0-D1, 1 D2-D3, 2 D0-D2, 3 D1-D3 (R425). -/
abbrev UcieId := Fin 4
/-- A page index below 0x10000 (R46). -/
abbrev PageIdx := Fin 65536

/-- A 64-byte descriptor of eight little-endian words (R135, R175, R200, R254, R287, R307, R366). -/
structure Desc where
  w0 : Word := 0
  w1 : Word := 0
  w2 : Word := 0
  w3 : Word := 0
  w4 : Word := 0
  w5 : Word := 0
  w6 : Word := 0
  w7 : Word := 0
  deriving DecidableEq, Repr

/-- Word `i` of a descriptor. -/
def Desc.word (d : Desc) (i : Nat) : Word :=
  match i with
  | 0 => d.w0 | 1 => d.w1 | 2 => d.w2 | 3 => d.w3
  | 4 => d.w4 | 5 => d.w5 | 6 => d.w6 | _ => d.w7

/-- One instruction as the issue unit decodes it: the context, the address of the instruction that
follows (the manual gives no encoding of program code, so the stream supplies it) and the
descriptor.  The instruction's own address is the context's PC. -/
structure Issue where
  core : CoreId
  ctx : CtxId
  npc : BitVec 48
  desc : Desc
  deriving DecidableEq, Repr

/-- An end of a UCIe link: the far one is that of the die with the higher number (R454). -/
structure UcieEnd where
  link : UcieId
  far : Bool
  deriving DecidableEq, Repr

/-- What a connection request brings: the number that the device gives the QP, and the retry count that CM negotiates (R388). -/
structure CmReq where
  qpn : Nat
  retries : Fin 8
  deriving DecidableEq, Repr

/-- Who makes a register access (R55, R56). -/
inductive Src where
  | host
  | program (core : CoreId) (ctx : CtxId)
  | keyhole
  deriving DecidableEq, Repr

/-- A torus packet: the four header words of R333, the payload in 64-byte units, as bytes. -/
structure Packet where
  w0 : Word
  w1 : Word
  w2 : Word
  w3 : Word
  payload : List Byte
  deriving DecidableEq, Repr

/-- The outcome of an ECC check (R313), as the memory cells decide it. -/
inductive Ecc where
  | clean
  | single
  | uncorrectable
  deriving DecidableEq, Repr

/-- A partner's training record (R329). -/
structure TrainRec where
  x : Fin 32
  y : Fin 32
  z : Fin 32
  /-- The direction the partner's port faces, in the code of TOR.LINK.FACING. -/
  facing : Fin 6
  /-- Partner port number (TOR.PARTNER). -/
  port : Fin 12
  /-- Bit v-1 set for each HTL version the partner supports. -/
  versions : BitVec 3
  /-- Highest lane rate of the partner, as the HTL version whose rate it is. -/
  maxRate : Fin 4
  /-- The record has a spare field and the partner's spare is free, wired to this link and allowed. -/
  spareUsable : Bool
  /-- The partner's receive lanes that failed to lock. -/
  failedLanes : BitVec 4
  deriving DecidableEq, Repr

/-- A message that ends a wait or answers a sync request (R243, R245): the requester, the tag of
the wait, and the status of the answer. -/
structure WakeMsg where
  core : CoreId
  ctx : CtxId
  tag : Nat
  status : Nat
  deriving DecidableEq, Repr

/-- A cancel of a wait (R245, R248), as it reaches the holding unit. -/
structure CancelMsg where
  node : Nat
  core : Nat
  ctx : Nat
  epoch : Nat
  tag : Nat
  /-- Bits [47:0] of word 1 of the descriptor that named the object (R333). -/
  addr : Nat
  /-- The wait ended by a fault, a halt or a reset of its context, not by its timeout (R248). -/
  gone : Bool := false
  deriving DecidableEq, Repr

/-- One thermal sensor at a sample (R436): a reading in 1/16 degC, or a failed self-check. -/
structure Sensor where
  temp : Int
  failed : Bool := false
  deriving DecidableEq, Repr

/-- The channel of a Keyhole request (R470): JTAG on D0, or a datagram on port 0 with its source address. -/
inductive KhVia where
  | jtag
  | udp (ip : BitVec 128)
  deriving DecidableEq, Repr

/-- A Keyhole request after its OP (R470). -/
structure KhReq where
  via : KhVia
  space : Nat
  tag : Nat
  addr : Nat
  length : Nat
  session : Nat
  data : List Byte
  deriving DecidableEq, Repr

/-- A response of the remote side to a device QP (R402). -/
inductive RdmaResp where
  | ack
  | nakAccess
  | readData (data : List Byte)
  deriving DecidableEq, Repr

/-- The unit that a handshake timeout strikes (R456). -/
inductive HsUnit where
  | core (n : CoreId)
  | fabric (die : DieId) (cluster : Fin 8)
  deriving DecidableEq, Repr

/-- Who issues a memory request (R298). -/
inductive Requester where
  | program (core : CoreId) (ctx : CtxId)
  /-- The issue unit, for the instruction at the context's PC. -/
  | fetch (core : CoreId) (ctx : CtxId)
  | dma (core : CoreId) (ctx : CtxId)
  | quantiser (core : CoreId) (ctx : CtxId)
  | torus
  | ethernet
  | collective
  | cfe
  | msc
  deriving DecidableEq, Repr

/-- What a frame lost to an Ethernet error was lost by (R409). -/
inductive EthErr where
  | fcs
  | fecUncorrectable
  deriving DecidableEq, Repr

/-- Why a sector leaves the WCB (R302). -/
inductive LeaveWhy where
  | age | room | hold | selfRefresh | fence
  deriving DecidableEq, Repr

/-- The commands: one constructor per row of spec/opcode_table.json, in the table's order. -/
inductive Instr where
  | powerGood
  | resetN
  | strapSample (x y z : Fin 32) (profile : Fin 8) (boot : Fin 4)
  | pwrgoodFall
  | vstbyLoss
  | vinUv
  | vinOv
  | ivrOc (island : IslandId)
  | powerStopClear
  | stageS1 (ms : Nat)
  | stageS2 (ms : Nat) (noVolt : Bool)
  | ucieTrainTimeout (link : UcieId)
  | hbmTrainTimeout (stack : StackId)
  | stageS3 (ms : Nat) (noVolt : Option (Fin 36))
  | crossingFilled (die : DieId) (xing : XingId)
  | startTick (port : Option PortId)
  | datapathRelease (die : DieId) (xing : XingId)
  | crossingTimeout (die : DieId) (xing : XingId)
  | recoveryDatagram (offset : Nat) (data : List Byte)
  | linkSignalDetect (port : PortId) (lane : LaneId)
  | laneLock (port : PortId) (lane : LaneId)
  | laneLockTimeout (port : PortId)
  | trainingRecord (port : PortId) (r : TrainRec)
  | linkUp (port : PortId)
  | torRetrainReq (port : PortId) (src : Src)
  | linkPacketReceive (port : PortId) (seq : Fin 4096) (crcOk : Bool) (corrected uncorrectable : Nat)
      (p : Packet)
  | linkAck (port : PortId) (seq : Fin 4096)
  | linkNak (port : PortId) (expected : Fin 4096)
  | replayTimeout (port : PortId)
  | packetForward (slot : Fin 13) (die : DieId) (vc : VcId)
  | packetDepart (port : PortId) (vc : VcId)
  | creditReturn (port : PortId) (vc : VcId) (units : Nat)
  | wr (p : Packet)
  | rd (p : Packet)
  | aop (p : Packet)
  | sync (p : Packet)
  | ack (p : Packet)
  | rdata (p : Packet)
  | aresp (p : Packet)
  | nak (p : Packet)
  | coll (die : DieId) (axis : AxisId) (p : Packet)
  | mgmt (p : Packet)
  | tsig (i : Issue)
  | twait (i : Issue)
  | pput (i : Issue)
  | ptake (i : Issue)
  | sown (i : Issue)
  | sdrop (i : Issue)
  | watchRequest (die : DieId)
  | wake (w : WakeMsg)
  | cancel (die : DieId) (c : CancelMsg)
  | watchTimeout (core : CoreId) (ctx : CtxId)
  | engineSignal (core : CoreId)
  | synHostAdd (inst : Fin 148) (index : Fin 8192) (amount : BitVec 32)
  | synHostPut (inst : Fin 148) (index : Fin 8192) (amount : BitVec 32)
  | synHostRelease (inst : Fin 148) (kind : Bool) (index : Fin 8192)
  | synSelWrite (inst : Fin 148) (value : Word) (src : Src)
  | synValueWrite (inst : Fin 148) (value : Word)
  | lendOffer (island : Fin 32)
  | matrixInstruction (i : Issue)
  | runRelease (core : CoreId) (ctx : CtxId)
  | runEnd (core : CoreId) (ctx : CtxId)
  | poisonedLine (core : CoreId) (ctx : CtxId) (line : Fin 65536)
  | quant (i : Issue)
  | qdrain (i : Issue)
  | qntRelease (core : CoreId) (ctx : CtxId)
  | qntComplete (core : CoreId)
  | vadd (i : Issue)
  | vsub (i : Issue)
  | vmul (i : Issue)
  | vfma (i : Issue)
  | vdiv (i : Issue)
  | vmax (i : Issue)
  | vmin (i : Issue)
  | vconv (i : Issue)
  | vexp (i : Issue)
  | vrcp (i : Issue)
  | vrsq (i : Issue)
  | vlog (i : Issue)
  | vrsum (i : Issue)
  | vrdot (i : Issue)
  | vrmax (i : Issue)
  | vrmin (i : Issue)
  | lutb (i : Issue)
  | vdrain (i : Issue)
  | vopt (i : Issue)
  | vdice (i : Issue)
  | vecRelease (core : CoreId) (ctx : CtxId)
  | vecComplete (core : CoreId)
  | dcopy (i : Issue)
  | datom (i : Issue)
  | dmaLineRequest (core : CoreId) (ctx : CtxId)
  | dmaComplete (core : CoreId) (ctx : CtxId)
  | programLoad (core : CoreId) (ctx : CtxId) (addr : BitVec 48) (bytes : Nat) (npc : BitVec 48)
  | programStore (core : CoreId) (ctx : CtxId) (addr : BitVec 48) (data : List Byte) (npc : BitVec 48)
  | memoryRead (by_ : Requester) (addr : BitVec 48) (bytes : Nat) (cls : Fin 4) (hit : Bool) (ecc : Ecc)
  | memoryWrite (by_ : Requester) (addr : BitVec 48) (data : List Byte)
  | memoryAtomic (by_ : Requester) (addr : BitVec 48) (op : Fin 16) (operand : Word) (ord : Option (Nat × Nat))
      (fetch : Bool)
  | wcbSectorLeave (stack : StackId) (why : LeaveWhy) (ecc : Ecc)
  | scrubRead (stack : StackId) (pch : PchId) (granule : Fin 9437184) (eccs : List (Fin 32 × Ecc))
  | severityPoll (stack : StackId) (severity : Fin 4) (pch : PchId)
  | phyDriftEval (stack : StackId) (pch : PchId) (alarm : Bool)
  | retrainReq (stack : StackId) (pch : PchId) (src : Src)
  | retrainTrained (stack : StackId) (us : Nat)
  | retrainHoldTimeout (stack : StackId)
  | retrainForced (stack : StackId) (pch : PchId)
  | fencedRetry (stack : StackId) (pch : PchId) (trained : Bool)
  | maint (src : Src)
  | retire (stack : StackId) (pch : PchId) (src : Src)
  | retireDone (stack : StackId) (bad : List (Fin 9437184))
  | txb (i : Issue)
  | txo (i : Issue)
  | txc (i : Issue)
  | txa (i : Issue)
  | txe (i : Issue)
  | taggedWrite (core : CoreId) (ctx : CtxId) (addr : BitVec 48) (data : List Byte)
  | commitWindowClose (txn : Nat)
  | resolve (v : Fin 4) (src : Src)
  | allreduce (i : Issue)
  | reducescatter (i : Issue)
  | allgather (i : Issue)
  | broadcast (i : Issue)
  | collectiveStart (die : DieId) (axis : AxisId)
  | collectiveComplete (die : DieId) (axis : AxisId)
  | collectiveTimeout (die : DieId) (axis : AxisId)
  | verdictReductionComplete
  | stepLogAck
  | bar (port : PortId)
  | barrierRelease
  | barTimeout
  | paceWindow (steps : List (BitVec 32))
  | stepEnd (src : Src)
  | verdictSet (bits : Fin 8) (src : Src)
  | evalStart (src : Src)
  | evalEnd (src : Src)
  | doorbell (q : QueueId) (tail : BitVec 32) (src : Src)
  | commandFetch (q : QueueId)
  | queueEnable (q : QueueId) (value : Word) (src : Src)
  | queueDisable (q : QueueId) (value : Word) (src : Src)
  | nop (q : QueueId)
  | negotiate (q : QueueId)
  | load (q : QueueId)
  | unload (q : QueueId)
  | start (q : QueueId)
  | stop (q : QueueId)
  | preempt (q : QueueId)
  | resume (q : QueueId)
  | stepCommit (q : QueueId)
  | xfer (q : QueueId)
  | xferComplete (q : QueueId)
  | snapshot (q : QueueId)
  | pinRelease (q : QueueId)
  | attest (q : QueueId)
  | recordWriteAck (dseq : Nat)
  | rdmaWrite (port : EthId) (qpn : Nat) (rkey : BitVec 32) (addr : BitVec 48) (data : List Byte)
  | rdmaRead (port : EthId) (qpn : Nat) (rkey : BitVec 32) (addr : BitVec 48) (len : Nat)
  | sendReject (port : EthId) (qpn : Nat)
  | rdmaAtomicReject (port : EthId) (qpn : Nat)
  | cmRequest (port : EthId) (ip : BitVec 128) (req : CmReq)
  | cnp (port : EthId) (qpn : Nat)
  | ecnMark (port : EthId) (qpn : Nat) (usSinceLast : Nat)
  | rateRecover (port : EthId) (qpn : Nat)
  | qpErr (port : EthId) (qpn : Nat)
  | ethLinkUp (port : EthId) (mode : Fin 6)
  | powerWindow (mv : Nat) (deciAmp : Nat) (watt : Nat) (joule : Nat)
  | thermalSample (die : DieId) (sensors : List Sensor)
  | rampTokenGrant (island : IslandId)
  | rampEnd (island : IslandId)
  | envHoldExpiry (island : Fin 32)
  | ctlEnable (page : PageIdx) (src : Src)
  | ctlCheck (page : PageIdx) (src : Src)
  | ctlDisable (page : PageIdx) (src : Src)
  | evtStatusClear (page : PageIdx) (ones : Word) (src : Src)
  | evtMaskWrite (page : PageIdx) (value : Word) (src : Src)
  | inject (page : PageIdx) (value : Word) (src : Src)
  | injAllowClear (value : Word) (src : Src)
  | registerWrite (page : PageIdx) (off : Fin 512) (value : Word) (src : Src)
  | bootGo (src : Src)
  | warm (confirm : Byte) (go : Bool) (src : Src)
  | coreReset (core : Byte) (src : Src)
  | handshakeTimeout (u : HsUnit)
  | issueParity (core : CoreId)
  | fabricParity (die : DieId) (cluster : Fin 8)
  | ucieRetryExhausted (side : UcieEnd)
  | crossingOverflow (die : DieId) (xing : XingId)
  | sequencerWatchdog
  | mscWdog
  | fatalHoldExpiry
  | retireCore (core : Byte) (src : Src)
  | shutterN
  | freeze (src : Src)
  | frz (port : PortId) (scope : Fin 3) (kind : Fin 3) (origin : BitVec 15) (seq : BitVec 16)
  | res (port : PortId) (origin : BitVec 15) (seq : BitVec 16) (pinLow : Bool)
  | khOpen (r : KhReq)
  | khRead (r : KhReq)
  | khWrite (r : KhReq)
  | khResume (r : KhReq) (pinLow : Bool)
  | khReset (r : KhReq)
  | khClose (r : KhReq)
  | khSessionTimeout
  | secStage (kind : Fin 16) (chunk : BitVec 16) (bytes : BitVec 12) (src : Src)
  | secVerify (kind : Fin 16) (chunk : BitVec 16) (bytes : BitVec 12) (go : Bool) (src : Src)
  | stageComplete
  | activate (kind : Fin 16) (src : Src)
  | confirm (kind : Fin 16) (src : Src)
  | burn (kind : Fin 16) (src : Src)
  | smbusReadWord (cmd : Byte)
  | halt (core : CoreId) (ctx : CtxId)
  | vstbyGood
  | ethLinkDown (port : EthId)
  | ethFcsErr (port : EthId) (kind : EthErr)
  | pfcPause (port : EthId) (prio : Fin 8)
  | rdmaResponse (port : EthId) (qpn : Nat) (r : RdmaResp)
  | roceRetryTimeout (port : EthId) (qpn : Nat)
  | selfRefreshReturn (stack : StackId)
  | stationaryUnpin (core : CoreId) (ctx : CtxId)
  | taggedLineWriteback (line : BitVec 42)
  deriving DecidableEq, Repr

end Sys2Proof
end

