-- ==== Sys2Proof/Decode.lean ====
section
/-! DEFINITION. Words and commands.  The table of operations and events gives no row any bits: the
manual names commands by their effect, not by an encoding, so no word spells one. -/

namespace Sys2Proof

/-- The command that the low `nbits` bits of `w` spell by the table's bits: none, since no row of the
table has bits. -/
def decodeTableWord (_nbits _w : Nat) : Option Instr := none

end Sys2Proof
end

