-- ==== Sys2Proof/Config.lean ====
section
/-! DEFINITION. What the manual leaves open or an implementation fixes: opaque constants.  Nothing in
Lean can evaluate them, so a claim about the model holds for every value they may have. -/

namespace Sys2Proof.Config

/-- A byte of memory whose contents the manual calls undefined (R294, R269, R297, R359, R411):
the number of the event that made it undefined, and the local address. -/
opaque freeByte : Nat → Nat → Byte

/-- Whether a line whose contents are undefined reads as poisoned (R314): event number and line. -/
opaque freePoison : Nat → Nat → Bool

/-- A flag whose value the manual leaves open: the number of the draw. -/
opaque freeBool : Nat → Bool

/-- A number that the manual leaves open, within the bound it states: the number of the draw. -/
opaque freeNat : Nat → Nat

/-- VER.MINOR of a class, which the firmware fixes (R51, R69): by class code. -/
opaque verMinor : Nat → BitVec 16

/-- SHA3-256 of the ROM (R487, TYPE 1). -/
opaque romDigest : List Byte

/-- Fuse ROOT_HASH (R477). -/
opaque rootHash : List Byte

/-- Fuse UDS (R477). -/
opaque uds : List Byte

/-- Fuse MAC (R477). -/
opaque fuseMac : BitVec 48

/-- ML-DSA-44 KeyGen_internal of FIPS 204 on a 32-byte seed (R483): public key and private key. -/
opaque mldsaKeyGen : List Byte → List Byte × List Byte

/-- ML-DSA-44 signing in pure mode: private key, context string, message (R478, R486). -/
opaque mldsaSign : List Byte → List Byte → List Byte → List Byte

/-- ML-DSA-44 verification: public key, context string, message, signature (R480). -/
opaque mldsaVerify : List Byte → List Byte → List Byte → List Byte → Bool

/-- A byte of the QSPI flash that nothing has written, as manufactured or after so many erasures (R479, R489): the number
of erasures of its slot, and its key in `Sec.flash`. -/
opaque blankFlash : Nat → Nat → Byte

/-- The device certificate held in flash (R484), in DER. -/
opaque deviceCert : List Byte

/-- The part of the alias certificate that is signed (R484): DeviceID public key, alias public key
and the measured MSC image digest, SVN and VERSION. -/
opaque aliasTbs : List Byte → List Byte → List Byte → Nat → Nat → List Byte

/-- The X.509 alias certificate made of its signed part and the signature (R484), in DER. -/
opaque aliasDer : List Byte → List Byte → List Byte

/-- The SESSION value that KH_OPEN returns (R470), by the number of the session: not 0 by R470. -/
opaque sessionId : Nat → BitVec 63

end Sys2Proof.Config
end

