-- ==== Sys2Proof/Machine/Bits.lean ====
section
/-! DEFINITION. Bit fields of words, byte order, sign handling: the helpers every other file reads
and writes registers and descriptors with. -/

namespace Sys2Proof.Machine

/-- Field [hi:lo] of a word, as a number (R15). -/
def fld (w : Word) (hi lo : Nat) : Nat := (w.toNat >>> lo) % 2 ^ (hi - lo + 1)

/-- Bit `i` of a word. -/
def bitAt (w : Word) (i : Nat) : Bool := w.toNat.testBit i

/-- The word with field [hi:lo] replaced by `v` (modulo the field's width). -/
def setFld (w : Word) (hi lo v : Nat) : Word :=
  let m : Nat := 2 ^ (hi - lo + 1)
  BitVec.ofNat 64 (w.toNat - (fld w hi lo) * 2 ^ lo + (v % m) * 2 ^ lo)

/-- The word with bit `i` set to `b`. -/
def setBit (w : Word) (i : Nat) (b : Bool) : Word := setFld w i i (if b then 1 else 0)

/-- A word with ones in [hi:lo]. -/
def mask (hi lo : Nat) : Word := BitVec.ofNat 64 ((2 ^ (hi - lo + 1) - 1) * 2 ^ lo)

/-- 1 or 0. -/
def b2n (b : Bool) : Nat := if b then 1 else 0

/-- The number a little-endian byte list spells (R15). -/
def leNat (bs : List Byte) : Nat :=
  match bs with
  | [] => 0
  | b :: r => b.toNat + 256 * leNat r

/-- The `n` little-endian bytes of a number. -/
def natLe (n v : Nat) : List Byte :=
  match n with
  | 0 => []
  | k + 1 => BitVec.ofNat 8 v :: natLe k (v / 256)

/-- A number of `n` bits read as two's complement. -/
def toSigned (n v : Nat) : Int :=
  let w := v % 2 ^ n
  if w < 2 ^ (n - 1) then (w : Int) else (w : Int) - (2 ^ n : Nat)

/-- An integer as `n` bits of two's complement. -/
def ofSigned (n : Nat) (v : Int) : Nat := (v % ((2 ^ n : Nat) : Int)).toNat

/-- Division toward zero of an integer by a positive number. -/
def truncDiv (a : Int) (b : Nat) : Int :=
  if a < 0 then - ((a.natAbs / b : Nat) : Int) else ((a.natAbs / b : Nat) : Int)

/-- Round a number up to a multiple of `m`. -/
def ceilDiv (a m : Nat) : Nat := (a + m - 1) / m

/-- All numbers from `lo` to `lo + n - 1`. -/
def rangeFrom (lo n : Nat) : List Nat := (List.range n).map (fun i => lo + i)

end Sys2Proof.Machine
end

