-- ==== Sys2Proof/Machine/Tab.lean ====
section
/-! DEFINITION. The sparse table in one canonical form: keys strictly rising and no entry equal to
what an unlisted key reads as, so that equal tables are equal data. -/

namespace Sys2Proof.Machine

/-- A sparse table: key and value pairs by rising key. -/
abbrev Tab (α : Type) := List (Nat × α)

/-- The listed value at `k`, if there is one. -/
def Tab.find {α : Type} (t : Tab α) (k : Nat) : Option α :=
  match t with
  | [] => none
  | (j, v) :: r => if j = k then some v else Tab.find r k

/-- The value at `k`; `d` is what an unlisted key reads as. -/
def Tab.get {α : Type} (t : Tab α) (d : α) (k : Nat) : α := (Tab.find t k).getD d

/-- The table with `k` unlisted. -/
def Tab.del {α : Type} (t : Tab α) (k : Nat) : Tab α :=
  match t with
  | [] => []
  | (j, v) :: r => if j = k then r else if k < j then (j, v) :: r else (j, v) :: Tab.del r k

/-- The table with `k` listed as `v`. -/
def Tab.put {α : Type} (t : Tab α) (k : Nat) (v : α) : Tab α :=
  match t with
  | [] => [(k, v)]
  | (j, w) :: r =>
    if j = k then (k, v) :: r
    else if k < j then (k, v) :: (j, w) :: r
    else (j, w) :: Tab.put r k v

/-- The table that reads `v` at `k`: the entry goes when `v` is what an unlisted key reads as. -/
def Tab.set {α : Type} [DecidableEq α] (t : Tab α) (d : α) (k : Nat) (v : α) : Tab α :=
  if v = d then Tab.del t k else Tab.put t k v

/-- Keys rise strictly, all above `lo` when it is given. -/
def Tab.sortedFrom {α : Type} (lo : Nat) (t : Tab α) : Bool :=
  match t with
  | [] => true
  | (j, _) :: r => decide (lo ≤ j) && Tab.sortedFrom (j + 1) r

/-- The canonical form: `isD k v` says that `v` is what an unlisted key `k` reads as. -/
def Tab.wf {α : Type} (isD : Nat → α → Bool) (t : Tab α) : Bool :=
  Tab.sortedFrom 0 t && t.all (fun e => !isD e.1 e.2)

/-- The table without the keys from `lo` to `hi - 1`. -/
def Tab.delRange {α : Type} (t : Tab α) (lo hi : Nat) : Tab α :=
  t.filter (fun e => !(decide (lo ≤ e.1) && decide (e.1 < hi)))

/-- A sorted list of numbers without repeats, with `n` in it. -/
def insSet (l : List Nat) (n : Nat) : List Nat :=
  match l with
  | [] => [n]
  | j :: r => if j = n then j :: r else if n < j then n :: j :: r else j :: insSet r n

/-- The list without `n`. -/
def delSet (l : List Nat) (n : Nat) : List Nat := l.filter (fun j => j != n)

end Sys2Proof.Machine
end

