-- ==== Sys2Proof/Machine/RegTable.lean ====
section
/-! DEFINITION. The control pages: classes, page indices, the registers of each class with the bits a
write may change, their locks and reset values, event bits, injection points (R46 to R52, and the
register table of every chapter). -/

namespace Sys2Proof.Machine

/-- Page classes (R48). -/
inductive Cls where
  | dir | cfe | mxa | cor | qnt | vec | syn | txn | mem | llc | tor | rtr | col | eth | rce | pwr | thm | ras
  | sht | sec | gen
  deriving DecidableEq, Repr

/-- The classes in ascending order of class code (R50). -/
def allCls : List Cls :=
  [.dir, .cfe, .mxa, .cor, .qnt, .vec, .syn, .txn, .mem, .llc, .tor, .rtr, .col, .eth, .rce, .pwr, .thm, .ras,
   .sht, .sec, .gen]

/-- Class code (R48). -/
def Cls.code : Cls → Nat
  | .dir => 0x01 | .cfe => 0x10 | .mxa => 0x20 | .cor => 0x21 | .qnt => 0x22 | .vec => 0x23 | .syn => 0x30
  | .txn => 0x31 | .mem => 0x40 | .llc => 0x41 | .tor => 0x50 | .rtr => 0x51 | .col => 0x52 | .eth => 0x60
  | .rce => 0x61 | .pwr => 0x70 | .thm => 0x71 | .ras => 0x80 | .sht => 0x81 | .sec => 0x90 | .gen => 0xA0

/-- Base page index (R48). -/
def Cls.base : Cls → Nat
  | .dir => 0x0000 | .cfe => 0x0010 | .mxa => 0x1000 | .cor => 0x1400 | .qnt => 0x1500 | .vec => 0x1600
  | .syn => 0x2000 | .txn => 0x2200 | .mem => 0x3000 | .llc => 0x3100 | .tor => 0x4000 | .rtr => 0x4100
  | .col => 0x4200 | .eth => 0x5000 | .rce => 0x5100 | .pwr => 0x6000 | .thm => 0x6100 | .ras => 0x7000
  | .sht => 0x7100 | .sec => 0x8000 | .gen => 0x9000

/-- Pages of a class (R48). -/
def Cls.count : Cls → Nat
  | .dir => 1 | .cfe => 2 | .mxa => 576 | .cor => 144 | .qnt => 144 | .vec => 144 | .syn => 148 | .txn => 4
  | .mem => 20 | .llc => 32 | .tor => 12 | .rtr => 4 | .col => 4 | .eth => 4 | .rce => 4 | .pwr => 36 | .thm => 4
  | .ras => 5 | .sht => 1 | .sec => 1 | .gen => 1

/-- Enable kind: 0 none, 1 fixed, 2 held, 3 free (R48, R51). -/
def Cls.enableKind : Cls → Nat
  | .dir => 0 | .cfe => 1 | .pwr => 1 | .thm => 1 | .ras => 1 | .sec => 1 | .sht => 3
  | .mxa => 2 | .cor => 2 | .qnt => 2 | .vec => 2 | .syn => 2 | .txn => 2 | .mem => 2 | .llc => 2 | .tor => 2
  | .rtr => 2 | .col => 2 | .eth => 2 | .rce => 2 | .gen => 2

/-- The page index of page number `i` of a class (R47). -/
def pageOf (c : Cls) (i : Nat) : Nat := c.base + i

/-- The class and page number of a page index; none for an unlisted page (R47). -/
def classify (p : Nat) : Option (Cls × Nat) :=
  (allCls.find? (fun c => decide (c.base ≤ p ∧ p < c.base + c.count))).map (fun c => (c, p - c.base))

/-- The key of a register: its byte offset in register space. -/
def regKey (page off : Nat) : Nat := page * 4096 + off

/-- Defined event bits of a class (R137, R138, R182, R203, R257, R291, R323, R325, R347, R349, R369,
R384, R408, R409, R410, R449, R451, R474, R475, R497). -/
def eventBits (c : Cls) (i : Nat) : Nat :=
  match c with
  | .dir => 0 | .cfe => 4 | .mxa => 5 | .cor => 4 | .qnt => 7 | .vec => 4 | .syn => 5 | .txn => 5 | .mem => 9
  | .llc => 5 | .tor => 6 | .rtr => 3 | .col => 5 | .eth => 3 | .rce => 4 | .pwr => if i = 32 then 6 else 4
  | .thm => 4 | .ras => if i = 0 then 6 else 2 | .sht => 2 | .sec => 6 | .gen => 2

/-- CAP.HAS_INJECT (R455): the classes of the table of R454. -/
def hasInject (c : Cls) : Bool :=
  match c with
  | .mem => true | .llc => true | .tor => true | .eth => true | .mxa => true | .qnt => true | .vec => true
  | .cor => true | .syn => true | .txn => true | .col => true | .pwr => true | .thm => true | .ras => true
  | .dir => false | .cfe => false | .rtr => false | .rce => false | .sht => false | .sec => false | .gen => false

/-- The injection points of a page (R454, R461). -/
def injectPoint (c : Cls) (i pt : Nat) : Bool :=
  match c with
  | .mem => decide (1 ≤ pt ∧ pt ≤ 4)
  | .llc => decide (1 ≤ pt ∧ pt ≤ 2)
  | .tor => decide (1 ≤ pt ∧ pt ≤ 4)
  | .eth => decide (1 ≤ pt ∧ pt ≤ 2)
  | .mxa => decide (1 ≤ pt ∧ pt ≤ 4)
  | .qnt => decide (1 ≤ pt ∧ pt ≤ 3)
  | .vec => decide (1 ≤ pt ∧ pt ≤ 3)
  | .cor => decide (1 ≤ pt ∧ pt ≤ 2)
  | .syn => decide (1 ≤ pt ∧ pt ≤ 2)
  | .txn => decide (1 ≤ pt ∧ pt ≤ 2)
  | .col => decide (pt = 1)
  | .pwr => decide (pt = 1 ∨ (pt = 2 ∧ i = 32))
  | .thm => decide (0x40 ≤ pt ∧ pt ≤ 0xFF)
  | .ras => if i = 0 then decide (1 ≤ pt ∧ pt ≤ 2) else decide (1 ≤ pt ∧ pt ≤ 4)
  | .dir => false | .cfe => false | .rtr => false | .rce => false | .sht => false | .sec => false | .gen => false

/-- CAP.CLASS_CAP in place, bits [63:8] (R137, R138, R181, R203, R257, R291, R322, R325, R347, R349,
R369, R384, R449, R451). -/
def classCap (c : Cls) (i : Nat) : Nat :=
  match c with
  | .mxa => 0x1F * 2 ^ 8
  | .cor => 2 ^ 8
  | .qnt => 3 * 2 ^ 8
  | .vec => 3 * 2 ^ 8
  | .syn => if i < 144 then 0 else 2 ^ 8
  | .txn => 2 ^ 8
  | .mem => 3 * 2 ^ 8
  | .llc => 2 ^ 8
  | .tor => 3 * 2 ^ 8
  | .rtr => 2 ^ 8
  | .col => 2 ^ 8
  | .gen => 2 * 2 ^ 8
  | .pwr => 50 * 2 ^ 8
  | .thm => 64 * 2 ^ 8
  | .dir => 0 | .cfe => 0 | .eth => 0 | .rce => 0 | .ras => 0 | .sht => 0 | .sec => 0

/-- The condition that locks the RWL fields of a register (R54). -/
inductive Lock where
  /-- while CTL.ENABLE of the page reads 1 -/
  | enable
  /-- while the job state is RUNNING, PREEMPTED or STOPPING -/
  | job
  /-- while EN of the queue group's CFG reads 1 -/
  | queue
  /-- while EN of CFE.EVQ_CFG reads 1 -/
  | evq
  deriving DecidableEq, Repr

/-- One row of a register table: `n` registers from `off` on, `stride` bytes apart; the bits that a
write stores (RW and RWL), the RWL bits, the W1C bits, the WO bits, the value at reset. -/
structure Reg where
  off : Nat
  n : Nat := 1
  stride : Nat := 8
  rw : Nat := 0
  rwl : Nat := 0
  w1c : Nat := 0
  wo : Nat := 0
  reset : Nat := 0
  lock : Lock := .enable
  deriving DecidableEq, Repr

/-- Ones in [hi:lo]. -/
def ones (hi lo : Nat) : Nat := (2 ^ (hi - lo + 1) - 1) * 2 ^ lo

/-- A read-only register. -/
def ro (off : Nat) (reset : Nat := 0) : Reg := { off := off, reset := reset }

/-- A register of RWL bits. -/
def rwl (off bits : Nat) (reset : Nat := 0) (lock : Lock := .enable) : Reg :=
  { off := off, rw := bits, rwl := bits, reset := reset, lock := lock }

/-- A register of RW bits. -/
def rw (off bits : Nat) (reset : Nat := 0) : Reg := { off := off, rw := bits, reset := reset }

/-- A register of WO bits. -/
def wo (off bits : Nat) : Reg := { off := off, wo := bits }

/-- Every bit of a register. -/
def allOnes : Nat := 2 ^ 64 - 1

/-- CFE registers, page 0 (R36, R231, R406, R425). -/
def cfe0Regs : List Reg :=
  [ro 0x100, { off := 0x108, n := 4 }, ro 0x128, ro 0x130,
   { off := 0x138, rw := ones 55 32 + ones 29 24 + 1, rwl := ones 55 32 + ones 29 24, lock := .evq, reset := 4 * 2 ^ 24 },
   rwl 0x140 allOnes 0 .evq, rwl 0x148 (ones 31 0) 0 .evq, rw 0x150 (ones 31 0), ro 0x158,
   rwl 0x180 3 0 .job, wo 0x188 1,
   rwl 0x1C0 allOnes 0 .job, rwl 0x1C8 (ones 47 12 + ones 4 0) 0 .job, ro 0x1D0,
   rwl 0x1D8 (ones 11 0) (ones 11 0) .job, wo 0x1E0 7, rw 0x1E8 1, rwl 0x1F0 allOnes 0 .job, rwl 0x1F8 allOnes 0 .job,
   ro 0x200 1, ro 0x208, wo 0x210 (ones 23 16 + 2 ^ 8 + 1), wo 0x218 (ones 8 0), ro 0x220,
   { off := 0x400, n := 16, stride := 0x40, rw := ones 55 32 + ones 29 20 + 1, rwl := ones 55 32 + ones 29 20,
     reset := 4 * 2 ^ 24 + 4 * 2 ^ 20, lock := .queue },
   { off := 0x408, n := 16, stride := 0x40, rw := ones 47 6, rwl := ones 47 6, lock := .queue },
   { off := 0x410, n := 16, stride := 0x40, rw := allOnes, rwl := allOnes, lock := .queue },
   { off := 0x418, n := 16, stride := 0x40, rw := ones 31 0, rwl := ones 31 0, lock := .queue },
   { off := 0x420, n := 16, stride := 0x40 },
   { off := 0x428, n := 16, stride := 0x40, rw := ones 31 0 },
   { off := 0x430, n := 16, stride := 0x40, rw := allOnes, rwl := allOnes, lock := .queue },
   { off := 0x438, n := 16, stride := 0x40 }]

/-- SYN registers (R256): core pages have no 0x180 and 0x188. -/
def synRegs (die : Bool) : List Reg :=
  [rw 0x100 (ones 14 0), { off := 0x108, rw := allOnes, rwl := allOnes, lock := .job }, ro 0x110 (if die then 0 else 2), ro 0x118,
   { off := 0x120, n := 8 }, ro 0x160, ro 0x168, ro 0x170,
   wo 0x178 (ones 63 32 + ones 15 0), ro 0x190 (if die then 8192 + 2048 * 65536 else 128 + 32 * 65536)] ++
  (if die then [rwl 0x180 (ones 25 16 + 3) (20 * 65536 + 2), ro 0x188] else [])

/-- The block-specific registers of a page. -/
def blockRegs (c : Cls) (i : Nat) : List Reg :=
  match c with
  | .dir => [ro 0x100 1291, ro 0x108 21, { off := 0x200, n := 42 }]
  | .cfe => if i = 0 then cfe0Regs else [{ off := 0x100, n := 16, wo := ones 31 0 }]
  | .mxa => [{ off := 0x100, n := 6 }, { off := 0x180, n := 3 }]
  | .cor => [rwl 0x100 1, { off := 0x140, n := 6 }, { off := 0x180, n := 6 }]
  | .qnt => [rwl 0x100 allOnes, ro 0x108, ro 0x110]
  | .vec => [{ off := 0x100, w1c := ones 14 8 + ones 6 0 }, { off := 0x108, n := 6 }, rwl 0x138 7]
  | .syn => synRegs (decide (144 ≤ i))
  | .txn =>
    [rwl 0x100 1, rwl 0x108 (ones 47 12), ro 0x120, ro 0x128, ro 0x140, ro 0x148, ro 0x150, ro 0x158] ++
    (if i = 0 then [rwl 0x110 (ones 47 12), rwl 0x118 (ones 10 0), ro 0x130, wo 0x138 3] else [])
  | .mem =>
    [rwl 0x100 (ones 31 9 + 3) (0x1000 * 2 ^ 16 + 16 * 2 ^ 10 + 2 ^ 9),
     ro 0x108 (72 * 2 ^ 32 + 32 * 2 ^ 16 + i * 2 ^ 8),
     rwl 0x110 (ones 27 24 + ones 19 16 + ones 11 8 + ones 3 0) (2 ^ 24 + 2 * 2 ^ 16 + 4 * 2 ^ 8 + 8),
     { off := 0x118, n := 6 }, wo 0x148 (ones 4 0 + 2 ^ 8), { off := 0x150, rw := ones 36 32, wo := 2 ^ 8 },
     ro 0x158, ro 0x168] ++ (if i = 0 then [wo 0x160 1] else [])
  | .llc => [rwl 0x100 1, { off := 0x108, n := 7 }]
  | .tor => [rwl 0x100 (2 ^ 8 + 3) (2 ^ 8 + 3), { off := 0x108, n := 9 }, wo 0x150 1]
  | .rtr => [ro 0x100, rwl 0x108 (ones 18 16 + ones 14 0), rwl 0x110 (ones 63 48 + ones 45 31 + ones 14 0), rwl 0x118 3,
      rwl 0x120 3 3, { off := 0x128, n := 4 }]
  | .col => [rwl 0x100 (ones 44 32 + ones 16 0) (2 ^ 16 + 100), { off := 0x108, n := 6 }, { off := 0x140, n := 8 }]
  | .eth => [rwl 0x100 (2 ^ 32 + ones 26 16 + 2 ^ 8 + 7) (2 ^ 32 + 3 * 2 ^ 24 + 8 * 2 ^ 16 + 2 ^ 8), ro 0x108,
      rwl 0x110 (ones 47 0), { off := 0x118, n := 7 }]
  | .rce =>
    [rwl 0x100 (ones 47 16 + 2 ^ 8 + 7) (55 * 2 ^ 32 + 50 * 2 ^ 16 + 2 ^ 8 + 5), rwl 0x108 (ones 31 0), rwl 0x110 allOnes,
     rwl 0x118 allOnes, { off := 0x120, n := 4 }, ro 0x140 0x030000000000, ro 0x148 0x10000000,
     rwl 0x150 (ones 34 0),
     { off := 0x158, n := 15, stride := 0x18, rw := ones 47 0, rwl := ones 47 0 },
     { off := 0x160, n := 15, stride := 0x18, rw := ones 47 0, rwl := ones 47 0 },
     { off := 0x168, n := 15, stride := 0x18, rw := ones 34 0, rwl := ones 34 0 },
     { off := 0x2C0, n := 32, rw := allOnes, rwl := allOnes }]
  | .pwr =>
    if i < 32 then [rwl 0x100 (ones 13 8 + ones 5 0) (50 * 2 ^ 8 + 30) .job, ro 0x108 (30 * 2 ^ 8 + 30), ro 0x110, ro 0x118]
    else if i = 32 then
      [ro 0x110, ro 0x118, rw 0x140 (ones 11 0) 2800, rwl 0x148 (ones 9 0) 50 .job, ro 0x150, ro 0x158, ro 0x160, ro 0x168]
    else [ro 0x110, ro 0x118]
  | .thm => [rw 0x100 (ones 11 0) (2 * 2 ^ 8 + 95), ro 0x108, rw 0x110 (ones 5 0), ro 0x118, ro 0x120, ro 0x128]
  | .ras =>
    if i = 0 then
      [rwl 0x100 (ones 47 32 + ones 23 16 + 1) (600 * 2 ^ 32 + 3 * 2 ^ 16) .job, { off := 0x108, n := 6 }, wo 0x138 (ones 8 0),
       ro 0x140]
    else [ro 0x100, ro 0x108]
  | .sht => [rwl 0x100 (ones 5 0), wo 0x108 1, ro 0x110, rwl 0x118 (ones 45 24 + ones 16 8 + 3), rwl 0x120 allOnes, ro 0x128,
      ro 0x130]
  | .sec =>
    [ro 0x100, ro 0x108, wo 0x110 (ones 43 32 + ones 31 16 + ones 9 8 + ones 3 0), ro 0x118, wo 0x120 (2 ^ 8 + ones 3 0),
     wo 0x128 (ones 9 8 + ones 3 0), ro 0x130, { off := 0x138, n := 7 }, { off := 0x800, n := 256, rw := allOnes }]
  | .gen => [rwl 0x100 3, ro 0x108 0x137FFF, ro 0x110]

/-- Whether a row holds the register at an offset. -/
def Reg.holds (r : Reg) (off : Nat) : Bool :=
  decide (r.off ≤ off ∧ (off - r.off) % r.stride = 0 ∧ (off - r.off) / r.stride < r.n)

/-- The header registers of a page (R51): ID, VER, CAP, CTL, STATUS, REASON, the event registers
and, where the class has them, INJECT and INJECT_STATUS. -/
def headerRegs (c : Cls) (i : Nat) : List Reg :=
  let ev := 2 ^ eventBits c i - 1
  [ro 0x000, ro 0x008, ro 0x010, { off := 0x018, rw := 1, wo := 2 }, ro 0x020, ro 0x028] ++
  (if eventBits c i = 0 then [] else [{ off := 0x030, w1c := ev }, ro 0x038, rw 0x040 ev ev]) ++
  (if hasInject c then [rw 0x048 (ones 39 8 + 3), ro 0x050] else [])

/-- The register at an offset of a page; none for a reserved offset or a register the class does
not use (R51, R56). -/
def findReg (c : Cls) (i off : Nat) : Option Reg :=
  (headerRegs c i ++ blockRegs c i).find? (fun r => r.holds off)

/-- Reset value of the register with a key: what an unlisted register reads as. -/
def resetVal (key : Nat) : Word :=
  match classify (key / 4096) with
  | none => 0
  | some (c, i) =>
    match findReg c i (key % 4096) with
    | none => 0
    | some r => BitVec.ofNat 64 r.reset

/-! ## Page indices by name -/

/-- MXA page of an array of a logical core (R48). -/
def pMXA (core arr : Nat) : Nat := 0x1000 + 4 * core + arr
/-- COR page of a logical core. -/
def pCOR (core : Nat) : Nat := 0x1400 + core
/-- QNT page of a logical core. -/
def pQNT (core : Nat) : Nat := 0x1500 + core
/-- VEC page of a logical core. -/
def pVEC (core : Nat) : Nat := 0x1600 + core
/-- SYN page of a sync unit: 0-143 core ports, 144 + d die units. -/
def pSYN (unit : Nat) : Nat := 0x2000 + unit
/-- TXN page of a die. -/
def pTXN (die : Nat) : Nat := 0x2200 + die
/-- MEM page of a stack. -/
def pMEM (stack : Nat) : Nat := 0x3000 + stack
/-- LLC page of a slice. -/
def pLLC (slice : Nat) : Nat := 0x3100 + slice
/-- TOR page of a port. -/
def pTOR (port : Nat) : Nat := 0x4000 + port
/-- RTR page of a die. -/
def pRTR (die : Nat) : Nat := 0x4100 + die
/-- COL page of a die. -/
def pCOL (die : Nat) : Nat := 0x4200 + die
/-- ETH page of a port. -/
def pETH (port : Nat) : Nat := 0x5000 + port
/-- RCE page of a port. -/
def pRCE (port : Nat) : Nat := 0x5100 + port
/-- PWR page of an island. -/
def pPWR (island : Nat) : Nat := 0x6000 + island
/-- THM page of a die. -/
def pTHM (die : Nat) : Nat := 0x6100 + die
/-- RAS page. -/
def pRAS (i : Nat) : Nat := 0x7000 + i
/-- CFE control page. -/
def pCFE : Nat := 0x0010
/-- CFE doorbell page. -/
def pCFE1 : Nat := 0x0011
/-- SHT page. -/
def pSHT : Nat := 0x7100
/-- SEC page. -/
def pSEC : Nat := 0x8000
/-- GEN page. -/
def pGEN : Nat := 0x9000

/-- Offset of a register of context `c`'s group on a COR page (R138). -/
def corOff (c off : Nat) : Nat := 0x140 + 0x40 * c + off

/-- Offset of a register of queue `q`'s group on the CFE page (R406). -/
def qOff (q off : Nat) : Nat := 0x400 + 0x40 * (q % 16) + off

/-! ## Reason codes (R64) -/

/-- OK. -/
def cOK : Nat := 0x00
/-- RANGE. -/
def cRANGE : Nat := 0x01
/-- ALIGN. -/
def cALIGN : Nat := 0x02
/-- CONFLICT. -/
def cCONFLICT : Nat := 0x03
/-- LOCKED. -/
def cLOCKED : Nat := 0x04
/-- STATE. -/
def cSTATE : Nat := 0x05
/-- VERSION. -/
def cVERSION : Nat := 0x06
/-- CAPACITY. -/
def cCAPACITY : Nat := 0x07
/-- DEPENDENCY. -/
def cDEPENDENCY : Nat := 0x08
/-- TOPOLOGY. -/
def cTOPOLOGY : Nat := 0x09
/-- ROUTE. -/
def cROUTE : Nat := 0x0A

end Sys2Proof.Machine
end

