-- ==== Sys2Proof/Machine/State.lean ====
section
/-! DEFINITION. The state of the package as plain data, the reasons a step can stop, and the state
after reset. -/

namespace Sys2Proof.Machine

/-- Why a step stops. -/
inductive Fault where
  /-- Raised by the meaning of an event of the package's own (a run that ends, a timer that expires,
  an acknowledgement) in a state in which the manual has no such event: nothing is in flight that
  could end, no request stands that could be served. Safe: the hardware has no such step. -/
  | notEnabled
  deriving DecidableEq, Repr

/-- Why a command has no meaning. -/
inductive Refusal where
  /-- Raised by the dispatch only, for a command that the model does not cover. Safe. -/
  | notModelled (mnemonic : String)
  /-- Raised by the step for a command that breaks `WellFormed` (a descriptor of another class, a
  payload that is not whole units): no such command exists. Safe. -/
  | illFormed
  deriving DecidableEq, Repr

/-! ## Memory -/

/-- The memory of the package, keyed by local address (R39): HBM, LLC scratch, core stores. -/
structure Mem where
  /-- Listed bytes; an unlisted byte reads 0, or a free value in a region of `undef`. -/
  cells : Tab Byte
  /-- Poison of lines (R314), by line number (address / 64): 1 clean, 2 poisoned; an unlisted line
  is clean, or free in a region of `undef`. -/
  poison : Tab Nat
  /-- Regions whose contents the manual calls undefined: first address, end, number of the event;
  the newest first. -/
  undef : List (Nat × Nat × Nat)
  deriving DecidableEq, Repr

/-! ## Cores and engines -/

/-- A decoded instruction (R118). -/
structure Ins where
  /-- Place in the program order of its context. -/
  seq : Nat
  /-- Local address of the instruction. -/
  pc : Nat
  /-- Engine class: 0 matrix, 1 vector, 2 quantiser, 3 DMA, 4 sync (R240). -/
  cls : Nat
  /-- OPCODE of the descriptor. -/
  op : Nat
  desc : Desc
  /-- Epoch of the context when it was decoded (R234). -/
  epoch : Nat
  /-- The transaction its context had open at decode, if any (R260). -/
  txn : Option Nat
  /-- Core-store lines whose resident bit its decode cleared (R120). -/
  lines : List Nat
  /-- Place in the order in which the core's two contexts decoded their instructions (R128). -/
  stamp : Nat := 0
  deriving DecidableEq, Repr

/-- A pending wait of a context (R243). -/
structure WaitSt where
  /-- Number of the wait on its node. -/
  tag : Nat
  ins : Ins
  /-- Die unit that holds the watch, none for a core-scope wire wait; node id of the holder. -/
  die : Option Nat
  node : Nat
  /-- The timeout has not expired yet and TIMEOUT_US is not 0. -/
  timed : Bool
  /-- A cancel has been sent after the timeout. -/
  cancelled : Bool
  deriving DecidableEq, Repr

/-- One context of a core (R127, R131, R246). Its STATE, PC and fault record are in the COR page. -/
structure Ctx where
  epoch : Nat := 0
  /-- Epoch at which the context owns its core-scope objects; they are orphaned while it differs
  (R247). -/
  ownEpoch : Nat := 0
  nseq : Nat := 0
  /-- Decoded, not yet released, in program order. -/
  queue : List Ins := []
  /-- Released and not complete. -/
  fly : List Ins := []
  wait : Option WaitSt := none
  /-- A wake that arrived while the context was pre-empted (R248). -/
  heldWake : Option WakeMsg := none
  /-- Number of the context's open transaction. -/
  txn : Option Nat := none
  /-- STATUS_ADDR of the most recently decoded TXB, none when it was refused (R275). -/
  statusAddr : Option Nat := none
  /-- Steps of transaction instructions that wait: 0 none, else the opcode (R268, R273, R277). -/
  txWait : Nat := 0
  /-- A status word that is due while its line is pinned: core-store offset and word (R120, R275). -/
  txDue : Option (Nat × Nat) := none
  /-- What the run in flight has loaded by step L: stationary, scale and codebook lines of the core store with their
  bytes and their poison (R110, R120). -/
  loaded : List (Nat × List Byte × Bool) := []
  deriving DecidableEq, Repr

/-- Progress of a released DMA instruction (R308, R311). -/
structure DmaJob where
  ctx : Nat
  ins : Ins
  /-- Next row and next byte of the row. -/
  row : Nat := 0
  byte : Nat := 0
  /-- Requests issued and not acknowledged. -/
  open_ : Nat := 0
  issued : Bool := false
  /-- Pieces read and not yet written, because a line they go to is pinned or its store must wait: row, byte, data,
  poison. -/
  parked : List (Nat × Nat × List Byte × Bool) := []
  deriving DecidableEq, Repr

/-- A released vector or quantiser instruction. -/
structure EngJob where
  ctx : Nat
  ins : Ins
  /-- CFE.STEP at release (R212). -/
  step : Nat := 0
  /-- Its stores are written and its census updates have been sent (R177). -/
  sent : Bool := false
  /-- Census updates on their way to another node. -/
  open_ : Nat := 0
  /-- Event bits that its completion or its fault will raise (R182). -/
  events : List Nat := []
  deriving DecidableEq, Repr

/-- A pin on a core-store line (R120): the line, the context and sequence number of the run or
instruction, and whether it ends at step L. -/
structure Pin where
  line : Nat
  ctx : Nat
  seq : Nat
  stationary : Bool
  deriving DecidableEq, Repr

/-- A core: its contexts, its core store's resident bits, pins and block tags, its shared engines. -/
structure Core where
  c0 : Ctx := {}
  c1 : Ctx := {}
  /-- Lines whose resident bit is 1 (R120). -/
  resident : List Nat := []
  pins : List Pin := []
  /-- Block tags (R94): tag + 1 by core-store offset, unlisted where no tagged stream wrote. -/
  tags : Tab Nat := []
  qnt : Option EngJob := none
  vec : Option EngJob := none
  dma : List DmaJob := []
  /-- Leaf whose turn it is at the vector engine, the quantiser and the DMA engine (R129). -/
  turnV : Nat := 0
  turnQ : Nat := 0
  turnD : Nat := 0
  /-- Instructions decoded by the core's contexts so far. -/
  nstamp : Nat := 0
  deriving DecidableEq, Repr

/-- One A-store set of an array (R141, R142). -/
structure ASet where
  /-- A words by entry index. -/
  a : Tab Word := []
  /-- Poisoned entries. -/
  poison : List Nat := []
  /-- Entries whose storage has an uncorrectable error (R174). -/
  bad : List Nat := []
  /-- Row count and SHAPE of the tile held. -/
  rows : Nat := 0
  shape : Nat := 0
  deriving DecidableEq, Repr

/-- One matrix array: its two A-store sets; the tile's other fields are in the MXA page. -/
structure Arr where
  live : ASet := {}
  shadow : ASet := {}
  /-- The NaR term that an injection gives the run in flight (R517, MXA 0x03). -/
  injNar : Bool := false
  deriving DecidableEq, Repr

/-! ## Synchronisation -/

/-- A waiter of a sync object (R243): a watch, a waiting taker or a wire wait. -/
structure Waiter where
  node : Nat
  core : Nat
  ctx : Nat
  epoch : Nat
  tag : Nat
  /-- Target of a TWAIT, COUNT of a PTAKE. -/
  amount : Nat
  take : Bool
  deriving DecidableEq, Repr

/-- A tally or pool with its owner, its last signaller and its waiters (R232, R246, R256). -/
structure Obj where
  value : Nat := 0
  wrap : Bool := false
  orphaned : Bool := false
  owned : Bool := false
  ownerNode : Nat := 0
  ownerCore : Nat := 0
  ownerCtx : Nat := 0
  ownerEpoch : Nat := 0
  waiters : List Waiter := []
  lastValid : Bool := false
  lastNode : Nat := 0
  lastCore : Nat := 0
  lastCtx : Nat := 0
  lastPc : Nat := 0
  lastStep : Nat := 0
  deriving DecidableEq, Repr

/-- A request on its way to a die sync unit (R243, R519). -/
structure SyncReq where
  die : Nat
  op : Nat
  kind : Nat
  index : Nat
  amount : Nat
  rel : Bool
  waits : Bool
  node : Nat
  core : Nat
  ctx : Nat
  epoch : Nat
  tag : Nat
  pc : Nat
  step : Nat
  /-- Source slot of R250. -/
  slot : Nat
  deriving DecidableEq, Repr

/-- An engine signal on its way to a core tally (R234). -/
structure Signal where
  core : Nat
  tally : Nat
  ctx : Nat
  epoch : Nat
  pc : Nat
  /-- CFE.STEP when the engine signalled (R256). -/
  step : Nat
  deriving DecidableEq, Repr

/-- The sync units of the node. -/
structure SyncSt where
  /-- Objects by 16384 * unit + 8192 * kind + index. -/
  objs : Tab Obj := []
  reqs : List SyncReq := []
  wakes : List WakeMsg := []
  cancels : List (Nat × CancelMsg) := []
  signals : List Signal := []
  /-- View registers captured by SNAP, by page instance: the fourteen words 0x108 to 0x170. -/
  views : Tab (List Word) := []
  /-- Next slot of the rotation of each unit that serves in slot order (R250): die sync units 0-3, LLC slices 100-131,
  HBM controllers 200-219, collective engines 300-303. -/
  rot : Tab Nat := []
  /-- Number of the next wait that stays on this node; below 65536 are the tags of packets. -/
  nextTag : Nat := 65536
  deriving DecidableEq, Repr

/-! ## Transactions -/

/-- A member context of a transaction. -/
structure Member where
  core : Nat
  ctx : Nat
  status : Nat
  txc : Bool := false
  txcDone : Bool := false
  txe : Bool := false
  txeDone : Bool := false
  deriving DecidableEq, Repr

/-- A core, package or machine transaction (R259, R271). -/
structure Txn where
  id : Nat
  /-- 1 core, 2 package, 3 machine. -/
  scope : Nat
  txid : Nat
  die : Nat
  parts : Nat
  members : List Member
  /-- 1 OPEN, 2 DOOMED, 3 COMMITTING, 4 IN_DOUBT, 5 APPLY, 6 ENDED. -/
  state : Nat
  /-- Abort cause (R281), its code and class, and the member that raised it. -/
  cause : Nat := 0
  code : Nat := 0
  cls : Nat := 0
  byCore : Nat := 0
  byCtx : Nat := 0
  regions : List Nat := []
  /-- Decided by RESOLVE (R278). -/
  resolved : Bool := false
  deriving DecidableEq, Repr

/-- A line of the tagged store (R260): its transaction, or none once committed and not yet written
back. -/
structure TLine where
  line : Nat
  owner : Option Nat
  data : List Byte
  poison : Bool := false
  deriving DecidableEq, Repr

/-- The transaction units of the node. -/
structure TxnSt where
  txns : List Txn := []
  tagged : List TLine := []
  nextId : Nat := 1
  /-- Step of the commit that produced the active version of a region, plus 1, and of the pinned one (R229);
  unlisted where the host wrote the version. -/
  stepOf : Tab Nat := []
  pinStep : Tab Nat := []
  deriving DecidableEq, Repr

/-! ## Memory controllers -/

/-- A sector of the write-combining buffer (R302): sector number (address / 32), the offsets of the
bytes written, and the contexts (2 * core + ctx) that wrote them.  The bytes themselves are in `Mem`,
since every reader is served from the merged contents. -/
structure Sector where
  sector : Nat
  mask : List Nat
  ctxs : List Nat
  deriving DecidableEq, Repr

/-- A request that waits at an HBM controller because its pseudo-channel is in hold (R316). -/
inductive Held where
  /-- the request of a command: a read, a write or an atomic, or a packet from the torus -/
  | cmd (c : Instr)
  /-- the read side of a piece of a DMA copy: core, context, number of the instruction, row, byte -/
  | dmaRead (core ctx seq row byte : Nat)
  /-- the write side of a piece, with the data that the read side brought -/
  | dmaWrite (core ctx seq row byte : Nat) (data : List Byte) (bad : Bool)
  /-- the request of a DATOM -/
  | dmaAtom (core ctx seq : Nat)
  deriving DecidableEq, Repr

/-- A waiting request as the controller orders it: the line it goes to, a read with its class (R300) or a write, and the
die whose request tracker holds it (R299). -/
structure MemReq where
  what : Held
  line : Nat
  cls : Option Nat
  die : Nat
  deriving DecidableEq, Repr

/-- The state of one HBM controller that no register shows. -/
structure Stack where
  /-- Requests that wait, in the order in which they arrived (R299, R316). -/
  waiting : List MemReq := []
  /-- Place in the frame of 16 reads (R300, R301). -/
  slot : Nat := 0
  /-- WCB sectors, oldest first. -/
  wcb : List Sector := []
  /-- Pseudo-channels with a retrain pending, the one in hold, the fenced ones (R316). -/
  pend : List Nat := []
  hold : Option Nat := none
  fenced : List Nat := []
  /-- Pseudo-channels that have been fenced and trained since, each of whose lines reads as poisoned until it
  is written in full, and the lines written in full since (R316). -/
  stale : List Nat := []
  fresh : List Nat := []
  /-- Pseudo-channels retired by a failed hold, whose granules all arrived poisoned (R316). -/
  lost : List Nat := []
  /-- Retrains that may start now: proceeded from a maintenance point or in free mode. -/
  go : List Nat := []
  /-- Corrected errors of each pseudo-channel since reset, and since its last retrain. -/
  ce : Tab Nat := []
  ceRetrain : Tab Nat := []
  /-- The pseudo-channel that is being retired, and its granules copied so far, in ascending order (R319). -/
  retiring : Option Nat := none
  copied : Nat := 0
  /-- Out of self-refresh for a Keyhole read during a freeze (R472). -/
  awake : Bool := false
  deriving DecidableEq, Repr

/-! ## Crossings (R25 to R27) -/

/-- What a crossing carries: a token without data, a packet, or a datum of an island's own traffic by its number. -/
inductive Token where
  | idle
  | packet (p : Packet)
  | datum (n : Nat)
  deriving DecidableEq, Repr

/-- One direction of a crossing: the tokens in its buffer, oldest first, and the data that the clocked side holds in its
own queue (R26). -/
structure XBuf where
  buf : List Token := []
  held : List Token := []
  deriving DecidableEq, Repr

/-- A crossing between a clocked island and clockless logic: towards the clockless side and towards the clocked one. -/
structure Xing where
  tx : XBuf := {}
  rx : XBuf := {}
  deriving DecidableEq, Repr

/-- A location of an adder's location table (R305). -/
structure Loc where
  addr : Nat
  count : Nat
  next : Nat
  deriving DecidableEq, Repr

/-- Who is answered when an atomic has been applied. -/
inductive Asker where
  /-- nobody: a request made on its own -/
  | none
  /-- the outside, which asked for the old word -/
  | out (addr width : Nat)
  /-- the DMA instruction of a context by its number; the old word goes to an offset when fetched -/
  | dma (core ctx seq : Nat) (ret : Option Nat)
  /-- another node, by an ARESP or an ACK -/
  | remote (node tag addr die : Nat) (fetch : Bool)
  deriving DecidableEq, Repr

/-- A contribution in a reorder buffer (R305), with who waits for its answer. -/
structure Contrib where
  addr : Nat
  ord : Nat
  x : Nat
  who : Asker
  deriving DecidableEq, Repr

/-- A memory-side adder: units 0-19 HBM controllers, 20-51 LLC slices (R305). -/
structure Adder where
  locs : List Loc := []
  rob : List Contrib := []
  deriving DecidableEq, Repr

/-- The memory controllers and slices of the package. -/
structure HbmSt where
  stk : Tab Stack := []
  adders : Tab Adder := []
  deriving DecidableEq, Repr

/-! ## Torus -/

/-- What the requester keeps of a request it has sent to another node (R333). -/
structure OutReq where
  tag : Nat
  /-- TYPE of the request. -/
  type : Nat
  core : Nat
  ctx : Nat
  /-- Number of the DMA instruction. -/
  seq : Nat
  /-- RD: row and first byte of the piece of the copy it reads. -/
  row : Nat := 0
  byte : Nat := 0
  /-- AOP: core-store offset that the old word goes to. -/
  ret : Option Nat := none
  /-- Answers still due: one for each node that a multicast reaches. -/
  due : Nat := 1
  deriving DecidableEq, Repr

/-- A packet that a router has given to an output, with the units it needs (R341). -/
structure OutPkt where
  pkt : Packet
  need : Nat
  /-- Input slot it came from (R341) and the virtual channel whose buffer there still holds it. -/
  slot : Nat
  inVc : Nat
  /-- A copy of it waits for a collective engine of this node and holds the units (R351). -/
  shared : Bool := false
  deriving DecidableEq, Repr

/-- A torus port: training, link layer and buffers (R329, R331, R340). -/
structure Port where
  /-- Step of R329: 1 no signal yet, 2 locking, 3 awaits the record, 5 the spare locks, 6 locking at the selected
  rate, 7 awaits alignment. -/
  step : Nat := 1
  /-- A partner's signal has been detected since training began. -/
  window : Bool := false
  locked : List Nat := []
  /-- Version whose rate the lanes train at. -/
  rate : Nat := 1
  /-- The spare pair is in training or in use for a lane. -/
  spareFor : Option Nat := none
  spareLocked : Bool := false
  record : Option TrainRec := none
  /-- This is a per-link reset: alignment by the die sync unit (R29). -/
  relink : Bool := false
  /-- Replay buffer: sequence number and packet, oldest first. -/
  replay : List (Nat × Packet) := []
  /-- Consecutive resends without progress. -/
  stuck : Nat := 0
  /-- Input buffers of VC0 to VC3, oldest first. -/
  in0 : List Packet := []
  in1 : List Packet := []
  in2 : List Packet := []
  in3 : List Packet := []
  /-- Packets routed to this output, by VC. -/
  out0 : List OutPkt := []
  out1 : List OutPkt := []
  out2 : List OutPkt := []
  out3 : List OutPkt := []
  /-- Place in the frame of eight packet slots, over an even and an odd frame (R342). -/
  slot : Nat := 0
  /-- Next input slot of the rotation of VC0 to VC3 (R342). -/
  rot0 : Nat := 0
  rot1 : Nat := 0
  rot2 : Nat := 0
  rot3 : Nat := 0
  /-- Next input slot of the rotation of foreign transit in fixed-order mode (R342). -/
  rotF : Nat := 0
  /-- The lowest-numbered lane fails its lock in this training (R517, TOR 0x04). -/
  failLane : Bool := false
  deriving DecidableEq, Repr

/-- The torus side of the node. -/
structure LinkSt where
  ports : Tab Port := []
  /-- Packets at the injection points: die and packet, oldest first. -/
  inj : List (Nat × Packet) := []
  /-- Packets that have left the torus at this node and await service, with the input slot each came by: port + 1, or 0
  for one of the node's own. -/
  arrivals : List (Nat × Packet) := []
  reqs : List OutReq := []
  nextTag : Nat := 0
  deriving DecidableEq, Repr

/-! ## Collectives and the barrier -/

/-- A verdict record (R217). -/
structure VRec where
  flags : Nat
  smin : Nat
  smax : Nat
  deriving DecidableEq, Repr

/-- A collective at an engine: the instruction's fields, or a header-only one of the CFE. -/
structure CollJob where
  axis : Nat
  id : Nat
  op : Nat
  mode : Nat
  root : Nat
  last : Bool
  grad : Bool
  src : Nat
  dst : Nat
  n : Nat
  /-- Issuing context, and its instruction; none for a header-only collective. -/
  by_ : Option (Nat × Nat × Ins)
  deriving DecidableEq, Repr

/-- A collective in progress on an engine (R352, R356, R357). -/
structure CollRun where
  job : CollJob
  /-- Elements of the reduce phase this node has folded, and elements of DST written. -/
  folded : Nat := 0
  written : Nat := 0
  /-- OR of the NONFINITE bits received or made here. -/
  nf : Bool := false
  /-- The verdict record folded so far, and whether it is the final one. -/
  rec_ : Option VRec := none
  recFinal : Bool := false
  /-- Own verdict unit sent, so the node has contributed on this axis. -/
  sent : Bool := false
  /-- The packets that need nothing from another node have been sent. -/
  begun : Bool := false
  /-- TAG of the packets it sends. -/
  tag : Nat := 0
  /-- REDUCESCATTER at the last position: elements of the sum not yet sent or written. -/
  buf : List Word := []
  deriving DecidableEq, Repr

/-- Collective engines and the barrier. -/
structure CollSt where
  /-- Collectives waiting at an engine, by die, oldest first. -/
  queue : List (Nat × CollJob) := []
  /-- Collectives in progress, by 3 * die + axis. -/
  run : List (Nat × CollRun) := []
  /-- COLL packets that wait in the VC2 input buffer of their port: input slot (port + 1, 0 for none), die, axis, packet. -/
  waiting : List (Nat × Nat × Nat × Packet) := []
  /-- COLL_IDs that ended by timeout or mismatch: die, axis, id. -/
  dead : List (Nat × Nat × Nat) := []
  /-- Releases that are due, oldest first: true starts the job, false is a step's (R361). -/
  barDue : List Bool := []
  /-- A barrier symbol is awaited: the window of R362 runs. -/
  barWait : Bool := false
  /-- A symbol arrived before the job's START. -/
  barEarly : Bool := false
  /-- A window has ended without a symbol: later symbols release nothing until the next job start (R362). -/
  barLate : Bool := false
  deriving DecidableEq, Repr

/-! ## Step, verdict and log -/

/-- How a step ends: the record it was decided by, and how far its end has come. -/
structure Ending where
  committed : Bool
  flags : Nat
  smin : Nat
  smax : Nat
  /-- Ended by STEP_COMMIT. -/
  host : Bool
  /-- Log entry written and not acknowledged. -/
  logged : Bool
  deriving DecidableEq, Repr

/-- The step machinery of the CFE. -/
structure StepSt where
  /-- The node has contributed its record to the current step (R216). -/
  contributed : Bool := false
  /-- Sources raised after the contribution: local bits and NF_OWN of the next step. -/
  nextBits : Nat := 0
  nextOwn : Bool := false
  /-- The record reduced over the axes done, and those axes. -/
  acc : Option VRec := none
  axesDone : List Nat := []
  /-- Axes on which a collective of this step carries or has carried the verdict. -/
  carried : List Nat := []
  /-- STEP_END of the present step is being served. -/
  stepEnd : Bool := false
  ending : Option Ending := none
  /-- A reduction of the step has ended without completing (R220). -/
  broken : Bool := false
  /-- The node is ready for STEP_COMMIT in a job that includes an HK1, and READY has said so (R381). -/
  ready : Bool := false
  deriving DecidableEq, Repr

/-! ## Host command queues -/

/-- A completion or event record (R393). -/
structure Rec where
  dseq : Nat
  w1 : Word
  w2 : Word
  w3 : Word
  /-- Command queue, or none for an event record. -/
  queue : Option Nat
  /-- Once written: the port and the QP it was written through. -/
  port : Nat := 0
  qpn : Nat := 0
  deriving DecidableEq, Repr

/-- The command a queue executes. -/
structure Cmd where
  desc : Desc
  hseq : Nat
  /-- Progress of a long command: bytes moved and acknowledged. -/
  moved : Nat := 0
  /-- Execution has begun. -/
  begun : Bool := false
  /-- Regions a SNAPSHOT has pinned. -/
  pins : List Nat := []
  /-- Bytes it moves in all. -/
  total : Nat := 0
  /-- Status and class that it ends with when what it has sent is acknowledged. -/
  stop : Option (Nat × Nat) := none
  /-- DSEQ set aside for its completion record (R486). -/
  dseq : Option Nat := none
  /-- HCQ version of its queue when it was fetched (R398). -/
  ver : Nat := 1
  deriving DecidableEq, Repr

/-- A command queue beyond its registers. -/
structure Queue where
  cur : Option Cmd := none
  /-- History of the last 64 completed commands: HSEQ, STATUS, CLASS (R394). -/
  hist : List (Nat × Nat × Nat) := []
  deriving DecidableEq, Repr

/-- The host command machinery of the CFE. -/
structure HcqSt where
  queues : Tab Queue := []
  /-- Records not yet written because their ring has no room or no QP (R396, R397). -/
  held : List Rec := []
  /-- Records written and not acknowledged: the lowest decides EVT_SEQ. -/
  unacked : List Rec := []
  /-- DSEQs set aside for records that are not queued yet (R486). -/
  aside : List Nat := []
  /-- The loaded image: address and length. -/
  image : Option (Nat × Nat) := none
  /-- Entry words by 2 * core + ctx. -/
  entries : Tab Nat := []
  /-- Configuration digest of the last accepted START (R488). -/
  cfgDigest : List Byte := []
  /-- Queue whose START is accepted and waits for the barrier. -/
  starting : Option Nat := none
  /-- Queues whose STEP_COMMIT has been accepted and waits, in the order of acceptance (R382). -/
  commits : List Nat := []
  /-- Pins that snapshots hold: region and command queue (R227). -/
  pins : List (Nat × Nat) := []
  deriving DecidableEq, Repr

/-! ## RDMA -/

/-- A message of the device that a QP has outstanding: the queue whose command sent it, and the bytes that it is still to
move; an RDMA READ has the local address they go to (R402). -/
structure Post where
  queue : Nat
  bytes : Nat
  dest : Option Nat := none
  deriving DecidableEq, Repr

/-- A queue pair of an Ethernet port (R388). -/
structure Qp where
  port : Nat
  qpn : Nat
  ip : Nat
  /-- The QP is in the error state. -/
  err : Bool := false
  /-- Send rate as a part of the port rate (R387). -/
  rate : Rat := 1
  /-- Outstanding messages as requester, in the order in which they were sent. -/
  posts : List Post := []
  /-- The retry count of its connection, and the retries in a row that nothing has answered. -/
  retries : Nat := 0
  tries : Nat := 0
  deriving DecidableEq, Repr

/-! ## Power, heat -/

/-- The envelope machinery of one island (R440 to R443). -/
structure Island where
  /-- Demand of instructions released, in 10 mA, beyond the floor; by core, context and number. -/
  released : List (Nat × Nat × Nat × Nat) := []
  /-- Releases that wait for the envelope: core, context and number. -/
  waiting : List (Nat × Nat × Nat) := []
  /-- Target of a ramp in progress or waiting, in 10 mA. -/
  target : Option Nat := none
  /-- Consecutive pace windows without a lag (R437). -/
  calm : Nat := 0
  /-- It lends: it has given up its ceiling down to its floor demand (R433). -/
  lends : Bool := false
  deriving DecidableEq, Repr

/-- The power manager. -/
structure PwrSt where
  islands : Tab Island := []
  /-- Islands waiting for a ramp token, in order of request (R441). -/
  tokens : List Nat := []
  /-- A power stop holds releases: its cause (R446). -/
  stopped : Option Nat := none
  /-- Supply condition of each cause now present: VIN_UV, VIN_OV, IVR_OC. -/
  present : List Nat := []
  /-- Bleed engaged (R439). -/
  bleed : Bool := false
  deriving DecidableEq, Repr

/-- The thermal sensors of the four dies: the last sample, and the sensors at or above the trip
threshold in it (R436, R444). -/
structure ThmSt where
  samples : Tab (List Sensor) := []
  hot : Tab (List Nat) := []
  /-- Dies whose THM.PEAK holds a reading since reset (R450). -/
  peaked : List Nat := []
  deriving DecidableEq, Repr

/-! ## Shutter, Keyhole, RAS -/

/-- An open Keyhole session (R471, R495). -/
structure Session where
  id : Nat
  unlocked : Bool
  rights : Nat
  deriving DecidableEq, Repr

/-- Freeze and read-out state beyond the SHT and RAS registers. -/
structure ShutSt where
  seq : Nat := 0
  session : Option Session := none
  sessions : Nat := 0
  badCodes : Nat := 0
  /-- A firing SHT.TRIG has been used up (R474). -/
  trigUsed : Bool := false
  deriving DecidableEq, Repr

/-! ## Board, bring-up, security -/

/-- Pins and supplies (R508). -/
structure Board where
  pwrgood : Bool := false
  vstby : Bool := false
  /-- ALERT_N and THERMTRIP_N driven low by the package; SHUTTER_N driven low by the package. -/
  alert : Bool := false
  thermtrip : Bool := false
  shutter : Bool := false
  deriving DecidableEq, Repr

/-- The boot configuration in use (R414). -/
structure BootCfg where
  medium : Nat := 0
  reserve : Bool := false
  key : Nat := 0
  mac : Nat := 0
  ipv4 : Nat := 0
  ipv6 : Nat := 0
  allow : List Nat := []
  /-- There is no boot configuration: the MSC serves whoever asks for ATTEST and staging. -/
  open_ : Bool := false
  deriving DecidableEq, Repr

/-- Bring-up beyond the CFE registers. -/
structure Boot where
  /-- Stage 0 to 3. -/
  stage : Nat := 0
  /-- The straps have been sampled since the last reset that samples them (R412). -/
  strapped : Bool := false
  /-- The ROM waits for a recovery image (R482). -/
  recovery : Bool := false
  /-- MSC firmware runs. -/
  mscUp : Bool := false
  /-- Crossings (13 * die + XING) that have raised FILLED; that have their tick; released. -/
  filled : List Nat := []
  ticked : List Nat := []
  aligned : List Nat := []
  cfg : BootCfg := {}
  /-- Core slots (40 * die + 5 * cluster + slot) that fuses mark, and that the spare record lists. -/
  fuseBad : List Nat := []
  spareSlots : List Nat := []
  /-- Pseudo-channels (32 * stack + pch) of the spare record. -/
  sparePchs : List Nat := []
  /-- The unusable slots of the harvest selection in force (R421). -/
  harvest : List Nat := []
  /-- Contained faults under R456 of each core slot since the last power-on reset (R462). -/
  slotFaults : Tab Nat := []
  /-- Recovery image received. -/
  recv : Tab Byte := []
  /-- Wall-clock ms of PWRGOOD high counted for AVAIL_T, and of down intervals; a down interval lasts until
  STAGE reads 3 (R463). -/
  availMs : Nat := 0
  downMs : Nat := 0
  down : Bool := false
  /-- Fatal errors over the life of the package (RAS.FATALS, in flash). -/
  fatals : Nat := 0
  /-- Pace windows since a contained abort that no commit has followed (R463); 0 none. -/
  retryMs : Nat := 0
  deriving DecidableEq, Repr

/-- The fields of a manifest that are used after it has been verified (R478). -/
structure Manifest where
  keyIndex : Nat := 0
  svn : Nat := 0
  version : Nat := 0
  revoke : Nat := 0
  digest : List Byte := []
  deriving DecidableEq, Repr

/-- The two flash slots of a kind (R479, R496): 0 A, 1 B. -/
structure Slots where
  active : Nat := 0
  trial : Bool := false
  validA : Bool := true
  validB : Bool := false
  deriving DecidableEq, Repr

/-- A debug grant (R494). -/
structure Grant where
  codeHash : List Byte
  rights : Nat
  uses : Nat
  deriving DecidableEq, Repr

/-- A STAGE that the MSC works on (R489). -/
structure StageJob where
  kind : Nat
  chunk : Nat
  bytes : Nat
  go : Bool
  verify : Bool
  deriving DecidableEq, Repr

/-- The image of a kind that runs now, and the slot it came from (R496). -/
structure Running where
  man : Manifest := {}
  slot : Nat := 0
  deriving DecidableEq, Repr

/-- The security state of the MSC. -/
structure Sec where
  msc : Slots := {}
  seqr : Slots := {}
  cfg : Slots := {}
  /-- Bytes written to the slots of kinds 1 to 3 and to the buffers of kinds 4 and 5, by 2^28 * (2 * kind + slot) +
  offset; an unlisted byte is as manufactured or as erased. -/
  flash : Tab Byte := []
  /-- Erasures of each slot and buffer, by 2 * kind + slot. -/
  erased : Tab Nat := []
  /-- The revocation order that has been verified. -/
  order : Option Manifest := none
  grant : Option Grant := none
  /-- Fuses REVOKE and ROLLBACK (R477), and whether UDS is locked (R483). -/
  revoke : Nat := 0
  rollback : Nat := 0
  udsLocked : Bool := false
  /-- A STAGE in progress. -/
  busy : Option StageJob := none
  /-- DeviceID public key, alias key pair and alias certificate that the running firmware has (R483). -/
  deviceId : List Byte := []
  aliasPub : List Byte := []
  aliasPriv : List Byte := []
  aliasCert : List Byte := []
  /-- The MSC firmware, the sequencer firmware and the boot configuration in use. -/
  mscRun : Running := {}
  seqRun : Running := {}
  cfgRun : Running := {}
  /-- A sequencer switch is due at the next step-log write (R490). -/
  seqSwitch : Bool := false
  deriving DecidableEq, Repr

/-! ## Outputs -/

/-- What the package gives the outside: packets and symbols on ports, RDMA, Keyhole answers, SMBus
words, loaded values. -/
inductive Out where
  /-- A packet on the wire; 1 it fails its CRC, 2 eight symbols are corrupted, 3 a codeword is uncorrectable
  (R517, TOR 0x01 to 0x03). -/
  | packet (port : Nat) (seq : Nat) (p : Packet) (err : Nat)
  | credit (port : Nat) (vc : Nat) (units : Nat)
  | linkAck (port : Nat) (seq : Nat)
  | linkNak (port : Nat) (expected : Nat)
  /-- The training record of a port (R329 step 3). -/
  | trainRecord (port : Nat) (r : TrainRec)
  | bar (port : Nat)
  | frz (port : Nat) (scope : Nat) (kind : Nat) (origin : Nat) (seq : Nat)
  | res (port : Nat) (origin : Nat) (seq : Nat)
  | rdmaAck (port : Nat) (qpn : Nat)
  | rdmaNak (port : Nat) (qpn : Nat) (why : Nat)
  | rdmaReadData (port : Nat) (qpn : Nat) (data : List Byte)
  | rdmaWriteOut (port : Nat) (qpn : Nat) (rkey : Nat) (addr : Nat) (data : List Byte)
  | rdmaReadOut (port : Nat) (qpn : Nat) (rkey : Nat) (addr : Nat) (len : Nat)
  /-- RoCEv2 frames leave a port: how many, their priority, and whether they say that they take ECN marks (R387). -/
  | frames (port : Nat) (n : Nat) (prio : Nat) (ecn : Bool)
  | cmAccept (port : Nat) (qpn : Nat)
  | cmReject (port : Nat) (noResources : Bool)
  | cnp (port : Nat) (qpn : Nat)
  | keyhole (op : Nat) (status : Nat) (tag : Nat) (addr : Nat) (session : Nat) (data : List Byte)
  | smbus (w : Nat)
  | smbusNak
  | loaded (core : Nat) (ctx : Nat) (data : List Byte)
  | regRead (addr : Nat) (v : Word)
  | memData (addr : Nat) (data : List Byte) (bad : Bool)
  | memRefused (addr : Nat) (code : Nat)
  | mgmt (p : Packet)
  deriving DecidableEq, Repr

/-! ## The state -/

/-- Everything the manual gives the package, and the model's own queue, draw counter and outputs. -/
structure State where
  board : Board
  boot : Boot
  /-- Register space (R46): every register by 4096 * page index + offset, unlisted at its reset
  value. -/
  regs : Tab Word
  mem : Mem
  cores : Tab Core
  arrs : Tab Arr
  sync : SyncSt
  txn : TxnSt
  hbm : HbmSt
  /-- Crossings, by 13 * die + XING (R25). -/
  xings : Tab Xing
  link : LinkSt
  coll : CollSt
  step : StepSt
  hcq : HcqSt
  qps : List Qp
  pwr : PwrSt
  thm : ThmSt
  shut : ShutSt
  sec : Sec
  /-- Occurrences of armed injection points since INJECT was written, by page index (R459). -/
  inj : Tab Nat
  /-- Draws of free values so far: the model's own. -/
  free : Nat
  /-- Outputs, oldest first: the model's own. -/
  out : List Out
  /-- Commands waiting, first in, first out. -/
  pending : List Instr
  deriving DecidableEq, Repr

/-- The package right after its internal reset, at the stage before the MSC firmware runs: every
register at its reset value, no context started, memory listing nothing, its contents undefined (R411). -/
def State.reset : State where
  board := {}
  boot := {}
  regs := []
  mem := { cells := [], poison := [], undef := [(0, 0x030000000000, 0)] }
  cores := []
  arrs := []
  sync := {}
  txn := {}
  hbm := {}
  xings := []
  link := {}
  coll := {}
  step := {}
  hcq := {}
  qps := []
  pwr := {}
  thm := {}
  shut := {}
  sec := {}
  inj := []
  free := 1
  out := []
  pending := []

end Sys2Proof.Machine
end

