-- ==== Sys2Proof/Machine/Access.lean ====
section
/-! DEFINITION. Named reads and writes of the parts of the state: registers, cores, contexts, arrays,
controllers, ports; the job state; the canonical form in which a step leaves its tables. -/

namespace Sys2Proof.Machine

/-- What a meaning answers. -/
abbrev Res := Host.Outcome State Fault Refusal

/-! ## Registers -/

/-- A register as stored. -/
def State.reg (s : State) (page off : Nat) : Word :=
  Tab.get s.regs (resetVal (regKey page off)) (regKey page off)

/-- The state with a register set. -/
def State.setReg (s : State) (page off : Nat) (v : Word) : State :=
  { s with regs := Tab.set s.regs (resetVal (regKey page off)) (regKey page off) v }

/-- Field [hi:lo] of a register. -/
def State.rf (s : State) (page off hi lo : Nat) : Nat := fld (s.reg page off) hi lo

/-- The state with field [hi:lo] of a register set. -/
def State.setRf (s : State) (page off hi lo v : Nat) : State :=
  s.setReg page off (setFld (s.reg page off) hi lo v)

/-- The state with a 64-bit counter advanced by `n`, modulo 2^64. -/
def State.addReg (s : State) (page off n : Nat) : State :=
  s.setReg page off (s.reg page off + BitVec.ofNat 64 n)

/-- CTL.ENABLE of a page as stored (pages of enable kind fixed are always enabled). -/
def State.enabled (s : State) (page : Nat) : Bool := bitAt (s.reg page 0x018) 0

/-! ## Canonical form of the tables -/

/-- A table with its keys rising, the first entry of a key prevailing, and no entry that `isD` calls
what an unlisted key reads as. -/
def Tab.norm {α : Type} (isD : Nat → α → Bool) (t : Tab α) : Tab α :=
  match t with
  | [] => []
  | (k, v) :: r => if isD k v then Tab.del (Tab.norm isD r) k else Tab.put (Tab.norm isD r) k v

/-- An address lies in a region whose contents the manual calls undefined. -/
def Mem.inUndef (m : Mem) (a : Nat) : Bool := m.undef.any (fun r => decide (r.1 ≤ a ∧ a < r.2.1))

/-- What an unlisted register reads as. -/
def isResetVal (k : Nat) (v : Word) : Bool := v == resetVal k

/-- What an unlisted byte reads as: 0 outside the undefined regions. -/
def Mem.isDef (m : Mem) (a : Nat) (v : Byte) : Bool := v == 0 && !m.inUndef a

/-- What an unlisted line reads as: clean outside the undefined regions. -/
def Mem.isClean (m : Mem) (line : Nat) (v : Nat) : Bool := v == 1 && !m.inUndef (line * 64)

/-- The register table in canonical form. -/
def Regs.wf (t : Tab Word) : Bool := Tab.wf isResetVal t

/-- The memory in canonical form. -/
def Memory.wf (m : Mem) : Bool := Tab.wf m.isDef m.cells && Tab.wf m.isClean m.poison

/-- What an unlisted part reads as: the part as it is after reset. -/
def isFresh {α : Type} [DecidableEq α] (fresh : α) (_ : Nat) (v : α) : Bool := v == fresh

/-- The tables of cores, arrays, sync objects, controllers, adders, ports, command queues, islands, counted
occurrences and crossings in canonical form. -/
def Tables.wf (s : State) : Bool :=
  Tab.wf (isFresh {}) s.cores && Tab.wf (isFresh {}) s.arrs && Tab.wf (isFresh {}) s.sync.objs &&
    Tab.wf (isFresh {}) s.hbm.stk && Tab.wf (isFresh {}) s.hbm.adders && Tab.wf (isFresh {}) s.link.ports &&
    Tab.wf (isFresh {}) s.hcq.queues && Tab.wf (isFresh {}) s.pwr.islands && Tab.wf (isFresh 0) s.inj &&
    Tab.wf (isFresh {}) s.xings

/-- The state with its tables and its memory in canonical form; nothing that can be read changes. -/
def State.settle (s : State) : State :=
  { s with
    regs := Tab.norm isResetVal s.regs
    mem := { s.mem with
      cells := Tab.norm s.mem.isDef s.mem.cells
      poison := Tab.norm s.mem.isClean s.mem.poison }
    cores := Tab.norm (isFresh {}) s.cores
    arrs := Tab.norm (isFresh {}) s.arrs
    sync := { s.sync with objs := Tab.norm (isFresh {}) s.sync.objs }
    hbm := {
      stk := Tab.norm (isFresh {}) s.hbm.stk
      adders := Tab.norm (isFresh {}) s.hbm.adders }
    link := { s.link with ports := Tab.norm (isFresh {}) s.link.ports }
    hcq := { s.hcq with queues := Tab.norm (isFresh {}) s.hcq.queues }
    pwr := { s.pwr with islands := Tab.norm (isFresh {}) s.pwr.islands }
    inj := Tab.norm (isFresh 0) s.inj
    xings := Tab.norm (isFresh {}) s.xings }

/-- The answer of a command that takes effect. -/
def State.done (s : State) : Res := .next s.settle

/-- The answer of an event of the package's own: it takes place only where `p` holds. -/
def occurs (p : Bool) (s : State) : Res := if p then s.done else .fault .notEnabled

/-- The answer of a command whose operands are well formed only where `p` holds. -/
def wellFormed (p : Bool) (r : Res) : Res := if p then r else .refused .illFormed

/-! ## Cores and contexts -/

/-- A logical core. -/
def State.core (s : State) (n : Nat) : Core := Tab.get s.cores {} n

/-- The state with a core set. -/
def State.setCore (s : State) (n : Nat) (c : Core) : State := { s with cores := Tab.set s.cores {} n c }

/-- A context of a core. -/
def Core.ctx (c : Core) (x : Nat) : Ctx := if x = 0 then c.c0 else c.c1

/-- The core with a context set. -/
def Core.setCtx (c : Core) (x : Nat) (v : Ctx) : Core := if x = 0 then { c with c0 := v } else { c with c1 := v }

/-- A context. -/
def State.ctx (s : State) (n x : Nat) : Ctx := (s.core n).ctx x

/-- The state with a context set. -/
def State.setCtx (s : State) (n x : Nat) (v : Ctx) : State := s.setCore n ((s.core n).setCtx x v)

/-- COR.CTX[c].STATE: 0 IDLE, 1 RUNNING, 2 HALTED, 3 FAULTED, 4 PREEMPTED (R138). -/
def State.ctxState (s : State) (n x : Nat) : Nat := s.rf (pCOR n) (corOff x 0x00) 2 0

/-- The state with COR.CTX[c].STATE set. -/
def State.setCtxState (s : State) (n x v : Nat) : State := s.setRf (pCOR n) (corOff x 0x00) 2 0 v

/-- COR.CTX[c].PC. -/
def State.ctxPc (s : State) (n x : Nat) : Nat := s.rf (pCOR n) (corOff x 0x08) 47 0

/-- COR.LEAF_MODE.LEAVES. -/
def State.leaves (s : State) (n : Nat) : Bool := bitAt (s.reg (pCOR n) 0x100) 0

/-- The context that owns an array under R127. -/
def State.arrOwner (s : State) (n arr : Nat) : Nat := if s.leaves n ∧ 2 ≤ arr then 1 else 0

/-- An array by its MXA instance number. -/
def State.arr (s : State) (n arr : Nat) : Arr := Tab.get s.arrs {} (4 * n + arr)

/-- The state with an array set. -/
def State.setArr (s : State) (n arr : Nat) (v : Arr) : State := { s with arrs := Tab.set s.arrs {} (4 * n + arr) v }

/-- All context numbers of the package, 2 * core + ctx. -/
def allCtxs : List Nat := List.range 288

/-- The die of a logical core (R6). -/
def dieOf (n : Nat) : Nat := n / 36

/-! ## Other parts -/

/-- The controller state of a stack. -/
def State.stack (s : State) (i : Nat) : Stack := Tab.get s.hbm.stk {} i

/-- The state with a controller's state set. -/
def State.setStack (s : State) (i : Nat) (v : Stack) : State :=
  { s with hbm := { s.hbm with stk := Tab.set s.hbm.stk {} i v } }

/-- An adder: 0-19 controllers, 20-51 slices. -/
def State.adder (s : State) (i : Nat) : Adder := Tab.get s.hbm.adders {} i

/-- The state with an adder set. -/
def State.setAdder (s : State) (i : Nat) (v : Adder) : State :=
  { s with hbm := { s.hbm with adders := Tab.set s.hbm.adders {} i v } }

/-- A crossing, by 13 * die + XING. -/
def State.xing (s : State) (i : Nat) : Xing := Tab.get s.xings {} i

/-- The state with a crossing set. -/
def State.setXing (s : State) (i : Nat) (v : Xing) : State := { s with xings := Tab.set s.xings {} i v }

/-- A torus port. -/
def State.port (s : State) (p : Nat) : Port := Tab.get s.link.ports {} p

/-- The state with a torus port set. -/
def State.setPort (s : State) (p : Nat) (v : Port) : State :=
  { s with link := { s.link with ports := Tab.set s.link.ports {} p v } }

/-- An island. -/
def State.island (s : State) (i : Nat) : Island := Tab.get s.pwr.islands {} i

/-- The state with an island set. -/
def State.setIsland (s : State) (i : Nat) (v : Island) : State :=
  { s with pwr := { s.pwr with islands := Tab.set s.pwr.islands {} i v } }

/-- A command queue. -/
def State.queue (s : State) (q : Nat) : Queue := Tab.get s.hcq.queues {} q

/-- The state with a command queue set. -/
def State.setQueue (s : State) (q : Nat) (v : Queue) : State :=
  { s with hcq := { s.hcq with queues := Tab.set s.hcq.queues {} q v } }

/-- The state with one output more. -/
def State.emit (s : State) (o : Out) : State := { s with out := s.out ++ [o] }

/-! ## Free values -/

/-- The number of the next draw, and the state after it. -/
def State.draw (s : State) : Nat × State := (s.free, { s with free := s.free + 1 })

/-! ## Job, mode, stage -/

/-- CFE.JOB.STATE: 0 IDLE, 1 LOADED, 2 RUNNING, 3 PREEMPTED, 4 STOPPING, 5 FROZEN, 6 FAULTED. -/
def State.job (s : State) : Nat := s.rf pCFE 0x100 2 0

/-- The job state is RUNNING, PREEMPTED or STOPPING (R37, R62). -/
def State.jobBusy (s : State) : Bool := s.job == 2 || s.job == 3 || s.job == 4

/-- CFE.RUN_MODE.MODE_RUN reads 1. -/
def State.fixedRun (s : State) : Bool := s.rf pCFE 0x180 5 4 == 1

/-- A run is in progress: the job state, or the state before FROZEN, is neither IDLE nor LOADED. A job that is FAULTED
has not ended its run, for its other contexts go on (R131). -/
def State.runOpen (s : State) : Bool :=
  let j := if s.job = 5 then s.rf pCFE 0x100 6 4 else s.job
  decide (2 ≤ j)

/-- A run in fixed-order mode is in progress. -/
def State.fixedOrder (s : State) : Bool := s.fixedRun && s.runOpen

/-- SHT.STATE.FROZEN: 0 running, 1 debug freeze, 2 fatal freeze. -/
def State.frozen (s : State) : Nat := s.rf pSHT 0x110 1 0

/-- The package is not frozen. -/
def State.live (s : State) : Bool := s.frozen == 0

/-- CFE.BOOT.STAGE (R425). -/
def State.stage (s : State) : Nat := s.boot.stage

/-- The MSC runs port 0 until the host has enabled ETH[0] and RCE[0] (R386). -/
def State.mscPort (s : State) : Bool := !(s.enabled (pETH 0) && s.enabled (pRCE 0))

/-- ETH.LINK (R386, R409). -/
def State.ethLink (s : State) (p : Nat) : Nat :=
  if s.enabled (pETH p) && (p != 0 || !s.mscPort) then (s.reg (pETH p) 0x108).toNat
  else if p = 0 ∧ 1 ≤ s.stage ∧ s.boot.mscUp ∧ s.board.pwrgood then (4 + s.boot.cfg.medium) * 16 + 2
  else 0

/-- The source addresses that may connect: an all-zero entry is empty. -/
def State.allowList (s : State) (p : Nat) : List Nat :=
  let words := if s.enabled (pRCE p) then (List.range 32).map (fun i => (s.reg (pRCE p) (0x2C0 + 8 * i)).toNat)
    else s.boot.cfg.allow
  ((List.range 16).map (fun (i : Nat) => words.getD (2 * i) 0 * 2 ^ 64 + words.getD (2 * i + 1) 0)).filter (fun v => v != 0)

/-- CFE.STEP. -/
def State.stepNo (s : State) : Nat := (s.reg pCFE 0x1C0).toNat

/-- CFE.EVAL.ACTIVE. -/
def State.evalActive (s : State) : Bool := bitAt (s.reg pCFE 0x1E8) 0

/-- A cause bit of CFE.RUN_MODE is set, with SEQ_VOID (R35, R36). -/
def State.markVoid (s : State) (bit : Nat) : State := (s.setRf pCFE 0x180 bit bit 1).setRf pCFE 0x180 16 16 1

/-- A cause bit of CFE.RUN_MODE is set, with SEQ_VOID, during a run (R35, R36). -/
def State.voidSeq (s : State) (bit : Nat) : State := if s.runOpen then s.markVoid bit else s

end Sys2Proof.Machine
end

