-- ==== Sys2Proof/Machine/Num.lean ====
section
/-! DEFINITION. Element codes, block scales, FP32 and its truncating arithmetic, conversions
(03_number_formats.md, 07_vector_engine.md). -/

namespace Sys2Proof.Machine

/-- Element codes of R91. -/
inductive Code where
  | s8 | u8 | s4 | u4 | cb4 | w16 | w24 | fp32 | bf16
  deriving DecidableEq, Repr

/-- CODE of an operand format field (R91); 9 to 15 are reserved. -/
def codeOfNat (n : Nat) : Option Code :=
  match n with
  | 0 => some .s8 | 1 => some .u8 | 2 => some .s4 | 3 => some .u4 | 4 => some .cb4
  | 5 => some .w16 | 6 => some .w24 | 7 => some .fp32 | 8 => some .bf16 | _ => none

/-- Bits of one element in one plane (R77, R84). -/
def Code.bits (c : Code) : Nat :=
  match c with
  | .s8 => 8 | .u8 => 8 | .s4 => 4 | .u4 => 4 | .cb4 => 4 | .w16 => 8 | .w24 => 8 | .fp32 => 32 | .bf16 => 16

/-- Limb planes of a code (R84). -/
def Code.planes (c : Code) : Nat :=
  match c with
  | .w16 => 2 | .w24 => 3
  | .s8 => 1 | .u8 => 1 | .s4 => 1 | .u4 => 1 | .cb4 => 1 | .fp32 => 1 | .bf16 => 1

/-- The code is an integer code with limb planes. -/
def Code.wide (c : Code) : Bool := decide (1 < c.planes)

/-- The code is FP32 or BF16. -/
def Code.isFloat (c : Code) : Bool := c == .fp32 || c == .bf16

/-- A 4-bit code. -/
def Code.four (c : Code) : Bool := c.bits == 4

/-- The code has no NaR element of its own (R77). -/
def Code.unsigned (c : Code) : Bool := c == .u8 || c == .u4

/-- Constants t, lo, hi of quant per destination (R103). -/
def Code.qt (c : Code) : Nat :=
  match c with
  | .s8 => 7 | .u8 => 8 | .s4 => 3 | .u4 => 4 | .w16 => 15 | .w24 => 23 | .cb4 => 0 | .fp32 => 0 | .bf16 => 0

/-- Lowest value of a destination code (R103). -/
def Code.lo (c : Code) : Int :=
  match c with
  | .s8 => -127 | .u8 => 0 | .s4 => -7 | .u4 => 0 | .w16 => -32512 | .w24 => -8323072
  | .cb4 => 0 | .fp32 => 0 | .bf16 => 0

/-- Highest value of a destination code (R103). -/
def Code.hi (c : Code) : Int :=
  match c with
  | .s8 => 127 | .u8 => 255 | .s4 => 7 | .u4 => 15 | .w16 => 32767 | .w24 => 8388607
  | .cb4 => 0 | .fp32 => 0 | .bf16 => 0

/-- An integer element as read: its integer, and whether it is NaR by its own code (R76 to R79). -/
structure Elem where
  i : Int
  nar : Bool
  deriving DecidableEq, Repr

/-- The element that a raw code spells: S8, U8, S4, U4, and a codebook index through `cb` (R78 to
R81). -/
def decodeElem (c : Code) (cb : Nat → Nat) (raw : Nat) : Elem :=
  match c with
  | .s8 => if raw % 256 = 0x80 then ⟨0, true⟩ else ⟨toSigned 8 raw, false⟩
  | .u8 => ⟨((raw % 256 : Nat) : Int), false⟩
  | .s4 => if raw % 16 = 8 then ⟨0, true⟩ else ⟨toSigned 4 raw, false⟩
  | .u4 => ⟨((raw % 16 : Nat) : Int), false⟩
  | .cb4 => ⟨toSigned 8 (cb (raw % 16)), false⟩
  | .w16 => ⟨toSigned 16 raw, decide (raw / 256 % 256 = 0x80)⟩
  | .w24 => ⟨toSigned 24 raw, decide (raw / 65536 % 256 = 0x80)⟩
  | .fp32 => ⟨0, false⟩
  | .bf16 => ⟨0, false⟩

/-- The raw code (all limbs, lowest first in the number) of an integer in a code; NaR by R100. -/
def encodeElem (c : Code) (q : Int) (nar : Bool) : Nat :=
  match c with
  | .s8 => if nar then 0x80 else ofSigned 8 q
  | .u8 => if nar then 0 else ofSigned 8 q
  | .s4 => if nar then 0x8 else ofSigned 4 q
  | .u4 => if nar then 0 else ofSigned 4 q
  | .cb4 => 0
  | .w16 => if nar then 0x8000 else ofSigned 16 q
  | .w24 => if nar then 0x800000 else ofSigned 24 q
  | .fp32 => 0
  | .bf16 => 0

/-- Kinds of FP32 word (R97). -/
inductive Kind where
  | zero | finite | inf | nan
  deriving DecidableEq, Repr

/-- An FP32 word taken apart (R98): value m * 2^e. -/
structure Dec where
  s : Bool
  e : Int
  m : Nat
  k : Kind
  deriving DecidableEq, Repr

/-- decode_fp32 of R98: a subnormal is flushed to zero. -/
def decodeF (x : F32) : Dec :=
  let s := x.toNat.testBit 31
  let be : Nat := x.toNat / 2 ^ 23 % 256
  let f : Nat := x.toNat % 2 ^ 23
  if be = 255 then (if f = 0 then ⟨s, 0, 0, .inf⟩ else ⟨s, 0, 0, .nan⟩)
  else if be = 0 then ⟨s, 0, 0, .zero⟩
  else ⟨s, (be : Int) - 150, f + 2 ^ 23, .finite⟩

/-- The FP32 word with a sign and the remaining 31 bits. -/
def mkF (s : Bool) (rest : Nat) : F32 := BitVec.ofNat 32 ((if s then 2 ^ 31 else 0) + rest)

/-- Canonical NaN (R97). -/
def nanF : F32 := BitVec.ofNat 32 0x7fc00000

/-- encode_fp32 of R98 for a magnitude of any width, m > 0: truncated, with OVF; a magnitude of 0
gives the zero of the sign. -/
def encodeF (s : Bool) (e : Int) (m : Nat) : F32 × Bool :=
  if m = 0 then (mkF s 0, false)
  else
    let n := Nat.log2 m
    let m' := if 23 < n then m >>> (n - 23) else m <<< (23 - n)
    let be : Int := e + (n : Int) - 23 + 150
    if be ≥ 255 then (mkF s 0x7f7fffff, true)
    else if be ≤ 0 then (mkF s 0, false)
    else (mkF s (be.toNat * 2 ^ 23 + m' % 2 ^ 23), false)

/-- Flags of the vector engine, by bit of VEC.EXC (R201): 0 OVF, 1 INVALID, 2 DIVZERO, 3 NAN_IN,
4 INF_IN, 5 NAR_IN, 6 SAT. -/
abbrev Flags := List Nat

/-- One flag when it holds. -/
def flagIf (b : Bool) (n : Nat) : Flags := if b then [n] else []

/-- canon of R102. -/
def canon (x : F32) : F32 :=
  let d := decodeF x
  match d.k with
  | .nan => nanF
  | .zero => mkF d.s 0
  | .finite => x
  | .inf => x

/-- The exact signed integer of a finite value on the grid 2^g, g at or below its exponent. -/
def onGrid (d : Dec) (g : Int) : Int :=
  let v : Int := ((d.m <<< (d.e - g).toNat : Nat) : Int)
  if d.s then -v else v

/-- The word of an exact integer on a grid: zero is +0. -/
def ofGrid (v : Int) (g : Int) : F32 × Bool :=
  if v = 0 then (mkF false 0, false) else encodeF (decide (v < 0)) g v.natAbs

/-- fadd_tz of R185 and R186, with its flags. -/
def faddTz (x y : F32) : F32 × Flags :=
  let a := decodeF x
  let b := decodeF y
  if a.k = .nan ∨ b.k = .nan then (nanF, [])
  else if a.k = .inf ∧ b.k = .inf then
    (if a.s = b.s then (mkF a.s 0x7f800000, []) else (nanF, [1]))
  else if a.k = .inf then (mkF a.s 0x7f800000, [])
  else if b.k = .inf then (mkF b.s 0x7f800000, [])
  else if a.k = .zero ∧ b.k = .zero then (mkF (a.s && b.s) 0, [])
  else if a.k = .zero then (y, [])
  else if b.k = .zero then (x, [])
  else
    let g := min a.e b.e
    let r := ofGrid (onGrid a g + onGrid b g) g
    (r.1, flagIf r.2 0)

/-- The word with its sign turned. -/
def negF (x : F32) : F32 := x ^^^ mkF true 0

/-- fsub_tz of R185. -/
def fsubTz (x y : F32) : F32 × Flags := faddTz x (negF y)

/-- fmul_tz of R185 and R186. -/
def fmulTz (x y : F32) : F32 × Flags :=
  let a := decodeF x
  let b := decodeF y
  let s := a.s != b.s
  if a.k = .nan ∨ b.k = .nan then (nanF, [])
  else if (a.k = .zero ∧ b.k = .inf) ∨ (a.k = .inf ∧ b.k = .zero) then (nanF, [1])
  else if a.k = .inf ∨ b.k = .inf then (mkF s 0x7f800000, [])
  else if a.k = .zero ∨ b.k = .zero then (mkF s 0, [])
  else
    let r := encodeF s (a.e + b.e) (a.m * b.m)
    (r.1, flagIf r.2 0)

/-- fma_tz of R185 and R186: one rounding after the exact a * b + c. -/
def fmaTz (x y z : F32) : F32 × Flags :=
  let a := decodeF x
  let b := decodeF y
  let c := decodeF z
  let s := a.s != b.s
  if a.k = .nan ∨ b.k = .nan ∨ c.k = .nan then (nanF, [])
  else if (a.k = .zero ∧ b.k = .inf) ∨ (a.k = .inf ∧ b.k = .zero) then (nanF, [1])
  else if a.k = .inf ∨ b.k = .inf then
    (if c.k = .inf ∧ c.s ≠ s then (nanF, [1]) else (mkF s 0x7f800000, []))
  else if c.k = .inf then (mkF c.s 0x7f800000, [])
  else if a.k = .zero ∨ b.k = .zero then
    (if c.k = .zero then (mkF (s && c.s) 0, []) else (z, []))
  else
    let p : Dec := ⟨s, a.e + b.e, a.m * b.m, .finite⟩
    if c.k = .zero then
      let r := encodeF s p.e p.m
      (r.1, flagIf r.2 0)
    else
      let g := min p.e c.e
      let r := ofGrid (onGrid p g + onGrid c g) g
      (r.1, flagIf r.2 0)

/-- fdiv_tz of R185 and R186. -/
def fdivTz (x y : F32) : F32 × Flags :=
  let a := decodeF x
  let b := decodeF y
  let s := a.s != b.s
  if a.k = .nan ∨ b.k = .nan then (nanF, [])
  else if (a.k = .inf ∧ b.k = .inf) ∨ (a.k = .zero ∧ b.k = .zero) then (nanF, [1])
  else if a.k = .inf then (mkF s 0x7f800000, [])
  else if b.k = .inf then (mkF s 0, [])
  else if b.k = .zero then (mkF s 0x7f800000, [2])
  else if a.k = .zero then (mkF s 0, [])
  else
    let r := encodeF s (a.e - b.e - 64) (a.m * 2 ^ 64 / b.m)
    (r.1, flagIf r.2 0)

/-- Order by value of words that are not NaN: -1, 0 or 1; -0 equals +0 (R164, R188). -/
def cmpF (x y : F32) : Int :=
  let key (d : Dec) : Int :=
    match d.k with
    | .zero => 0
    | .nan => 0
    | .inf => if d.s then -(2 ^ 400 : Int) else 2 ^ 400
    | .finite => onGrid d (-149)
  let a := key (decodeF x)
  let b := key (decodeF y)
  if a < b then -1 else if b < a then 1 else 0

/-- fmax of R188. -/
def fmaxF (x y : F32) : F32 :=
  let a := decodeF x
  let b := decodeF y
  if a.k = .nan ∨ b.k = .nan then nanF
  else if a.k = .zero ∧ b.k = .zero then mkF (a.s && b.s) 0
  else if cmpF x y < 0 then canon y else canon x

/-- fmin of R188. -/
def fminF (x y : F32) : F32 :=
  let a := decodeF x
  let b := decodeF y
  if a.k = .nan ∨ b.k = .nan then nanF
  else if a.k = .zero ∧ b.k = .zero then mkF (a.s || b.s) 0
  else if 0 < cmpF x y then canon y else canon x

/-- The word of 1.0. -/
def oneF : F32 := BitVec.ofNat 32 0x3f800000

/-- vrcp of R190. -/
def vrcp (x : F32) : F32 × Flags := fdivTz oneF x

/-- Largest r with r * r ≤ n, for n < 2^128, bit by bit. -/
def isqrt (n : Nat) : Nat :=
  (List.range 64).foldl (fun r i => let c := r + 2 ^ (63 - i); if c * c ≤ n then c else r) 0

/-- vrsq of R190: the largest FP32 y with y * y * a ≤ 1. -/
def vrsq (x : F32) : F32 × Flags :=
  let a := decodeF x
  match a.k with
  | .nan => (nanF, [])
  | .zero => (mkF a.s 0x7f800000, [2])
  | .inf => if a.s then (nanF, [1]) else (mkF false 0, [])
  | .finite =>
    if a.s then (nanF, [1])
    else
      let k : Int := (a.e + 101) / 2
      let ee : Nat := (2 * k - a.e).toNat
      let r := encodeF false (-k) (isqrt (2 ^ ee / a.m))
      (r.1, flagIf r.2 0)

/-- texp of R190: the largest integer not above 2^(30 + i/64), as a 64th root found bit by bit. -/
def texp (i : Nat) : Nat :=
  (List.range 32).foldl (fun r j => let c := r + 2 ^ (31 - j); if c ^ 64 ≤ 2 ^ (1920 + i) then c else r) 0

/-- ln(1 + i/128) * 2^140, below it by less than 2^8, by the series 2 * artanh(i / (256 + i)). -/
def lnSeries (i : Nat) : Nat :=
  let d := 256 + i
  (List.range 100).foldl (fun acc k => acc + (2 * i ^ (2 * k + 1) * 2 ^ 140) / (d ^ (2 * k + 1) * (2 * k + 1))) 0

/-- tlog of R190: the largest integer not above ln(1 + i/128) * 2^60. -/
def tlog (i : Nat) : Nat := lnSeries i / 2 ^ 80

/-- vexp of R191. -/
def vexp (x : F32) : F32 × Flags :=
  let a := decodeF x
  match a.k with
  | .nan => (nanF, [])
  | .zero => (oneF, [])
  | .inf => if a.s then (mkF false 0, []) else (mkF false 0x7f800000, [])
  | .finite =>
    if a.e + 150 ≥ 0x86 then (if a.s then (mkF false 0, []) else (mkF false 0x7f7fffff, [0]))
    else
      let t0 : Nat := if -a.e ≥ 64 then 0 else (a.m * 0x171547652) >>> (-a.e).toNat
      let t : Int := if a.s then -(t0 : Int) else t0
      let n : Int := t / (2 ^ 32 : Int)
      let f : Nat := (t - n * 2 ^ 32).toNat
      let u := (f % 2 ^ 26 * 0xb17217f7) >>> 32
      let u2 := (u * u) >>> 32
      let u3 := (u2 * u) >>> 32
      let q := 2 ^ 32 + u + u2 / 2 + u3 / 6
      let mm := (texp (f / 2 ^ 26) * q) >>> 32
      let r := encodeF false (n - 30) mm
      (r.1, flagIf r.2 0)

/-- vlog of R192. -/
def vlog (x : F32) : F32 × Flags :=
  let a := decodeF x
  if a.k = .nan then (nanF, [])
  else if a.k = .zero then (mkF true 0x7f800000, [2])
  else if a.s then (nanF, [1])
  else if a.k = .inf then (mkF false 0x7f800000, [])
  else
    let i : Nat := a.m / 2 ^ 16 % 128
    let base : Nat := (128 + i) * 2 ^ 16
    let w : Nat := (a.m - base) * 2 ^ 60 / base
    let w2 : Nat := (w * w) / 2 ^ 60
    let w3 : Nat := (w2 * w) / 2 ^ 60
    let w4 : Nat := (w3 * w) / 2 ^ 60
    let w5 : Nat := (w4 * w) / 2 ^ 60
    let l : Int := (w : Int) - ((w2 / 2 : Nat) : Int) + ((w3 / 3 : Nat) : Int) - ((w4 / 4 : Nat) : Int)
      + ((w5 / 5 : Nat) : Int)
    let v : Int := (a.e + 23) * 0x0b17217f7d1cf79a + ((tlog i : Nat) : Int) + l
    if v = 0 then (mkF false 0, [])
    else
      let r := encodeF (decide (v < 0)) (-60) v.natAbs
      (r.1, flagIf r.2 0)

/-! ## Conversions -/

/-- to_fp32 of R101, with OVF. -/
def toFp32 (i : Int) (nar : Bool) (eb : Nat) : F32 × Bool :=
  if nar ∨ eb = 255 then (nanF, false)
  else if i = 0 then (mkF false 0, false)
  else encodeF (decide (i < 0)) ((eb : Int) - 127) i.natAbs

/-- affine_to_fp32 of R101. -/
def affineToFp32 (u : Nat) (z : Int) (s : F32) : F32 × Flags :=
  let d : Int := (u : Int) - z
  let df := if d = 0 then mkF false 0 else (encodeF (decide (d < 0)) 0 d.natAbs).1
  fmulTz s df

/-- to_bf16 of R102. -/
def toBf16 (x : F32) : Nat :=
  let d := decodeF x
  match d.k with
  | .nan => 0x7fc0
  | .zero => if d.s then 0x8000 else 0
  | .finite => x.toNat / 65536
  | .inf => x.toNat / 65536

/-- from_bf16 of R102. -/
def fromBf16 (h : Nat) : F32 := canon (BitVec.ofNat 32 (h % 65536 * 65536))

/-- choose_e8 of R103. -/
def chooseE8 (xs : List F32) (t : Nat) : Nat :=
  let ds := xs.map decodeF
  let any := ds.any (fun d => d.k == .zero || d.k == .finite)
  let bmax : Int := ds.foldl (fun b d => if d.k = .finite ∧ d.e + 150 > b then d.e + 150 else b) 0
  if !any then 255 else if bmax = 0 then 0 else (bmax - t + 1).toNat

/-- Outcomes of quant (R104). -/
inductive QOut where
  | none | sat | infIn | nanIn
  deriving DecidableEq, Repr

/-- One element through quant (R103): integer, NaR, outcome. -/
structure QElem where
  q : Int
  nar : Bool
  o : QOut
  deriving DecidableEq, Repr

/-- quant_elem of R103. -/
def quantElem (x : F32) (eb : Nat) (c : Code) : QElem :=
  let d := decodeF x
  match d.k with
  | .nan => ⟨0, true, .nanIn⟩
  | .inf => ⟨0, true, .infIn⟩
  | .zero => ⟨0, false, .none⟩
  | .finite =>
    let sh : Int := d.e - eb + 127
    let a : Nat := if sh ≥ 40 then 2 ^ 40 else if sh ≥ 0 then d.m <<< sh.toNat
      else if sh ≤ -32 then 0 else d.m >>> (-sh).toNat
    let q : Int := if d.s then -(a : Int) else a
    if q > c.hi then ⟨c.hi, false, .sat⟩
    else if q < c.lo then ⟨c.lo, false, .sat⟩
    else ⟨q, false, .none⟩

/-- An entry "widen" of the table of R99. -/
def widens (src dst : Code) : Bool :=
  match src with
  | .s8 => dst.wide
  | .u8 => dst.wide
  | .s4 => dst == .s8 || dst.wide
  | .u4 => dst == .s8 || dst == .u8 || dst.wide
  | .cb4 => dst == .s8 || dst.wide
  | .w16 => dst == .w24
  | .w24 => false | .fp32 => false | .bf16 => false

/-- An entry "same" of the table of R99: codes and E8 are copied. -/
def sameCode (src dst : Code) : Bool := src == dst && !src.isFloat && src != .cb4

/-- quant of R103: one block of FP32 values to a code, with a chosen or a given E8. -/
def quantBlock (xs : List F32) (c : Code) (given : Option Nat) : Nat × List QElem :=
  let eb := match given with
    | some g => g
    | none => chooseE8 xs c.qt
  let es := xs.map (fun x => quantElem x eb c)
  if eb = 255 ∨ (c.unsigned ∧ es.any (·.nar)) then
    (255, es.map (fun e => ⟨0, true, if e.o = .sat then .none else e.o⟩))
  else if es.all (fun e => e.q == 0 && !e.nar) then (0, es)
  else (eb, es)

/-- f2i_tz of R164. -/
def f2iTz (x : F32) : Int :=
  let d := decodeF x
  if d.k ≠ .finite then 0
  else
    let a : Nat := if d.e > 38 then 2 ^ 62 else if d.e ≥ 0 then d.m <<< d.e.toNat
      else if d.e ≤ -24 then 0 else d.m >>> (-d.e).toNat
    if d.s then -(a : Int) else a

/-! ## A64 words -/

/-- The A64 NaR word (R157). -/
def narWord : Word := BitVec.ofNat 64 (2 ^ 63)

/-- a64_to_fp32 of R156. -/
def a64ToFp32 (a : Word) (poison : Bool) (c f : Nat) : F32 × Bool :=
  if poison then (nanF, false)
  else
    let v := a.toInt
    if v = 0 then (mkF false 0, false)
    else encodeF (decide (v < 0)) ((c : Int) - 254 - f) v.natAbs

/-- a64_raw of R156. -/
def a64Raw (a : Word) (poison : Bool) : Word := if poison then narWord else a

/-- a64_add of R303: the new word, and ASAT. -/
def a64Add (old x : Word) : Word × Bool :=
  let lim : Int := 2 ^ 63 - 1
  if old = narWord ∨ x = narWord then (narWord, false)
  else if old.toInt = lim ∨ old.toInt = -lim then (old, true)
  else
    let w := old.toInt + x.toInt
    if w > lim then (BitVec.ofInt 64 lim, true)
    else if w < -lim then (BitVec.ofInt 64 (-lim), true)
    else (BitVec.ofInt 64 w, false)

/-- Trailing zero bits of a word other than 0, at most 40. -/
def tz40 (n : Nat) : Nat := (List.range 40).foldl (fun r i => if n.testBit (39 - i) then 39 - i else r) 40

/-- pack16 of R355: the shift and the sixteen W24 codes, when the group encodes exactly. -/
def pack16 (a : List Word) : Option (Nat × List Nat) :=
  let nz := a.filter (fun w => w ≠ 0 ∧ w ≠ narWord)
  let s := if nz.isEmpty then 0 else nz.foldl (fun m w => min m (tz40 w.toNat)) 40
  let qs := a.map (fun w => if w = narWord then none else some (w.toInt / (2 ^ s : Nat)))
  if qs.all (fun q => match q with
      | none => true
      | some v => decide (-8323072 ≤ v ∧ v ≤ 8388607)) then
    some (s, qs.map (fun q => match q with
      | none => encodeElem .w24 0 true
      | some v => encodeElem .w24 v false))
  else none

/-- The 64 bytes of a packed unit (R355). -/
def packUnit (s : Nat) (ws : List Nat) : List Byte :=
  ws.map (fun w => BitVec.ofNat 8 w) ++ ws.map (fun w => BitVec.ofNat 8 (w / 256)) ++
  ws.map (fun w => BitVec.ofNat 8 (w / 65536)) ++ [BitVec.ofNat 8 s] ++ List.replicate 15 0

/-- The sixteen words of a packed unit (R355). -/
def unpackUnit (u : List Byte) : List Word :=
  let byte (i : Nat) : Nat := (u.getD i 0).toNat
  let s := byte 48
  (List.range 16).map (fun i =>
    let e := decodeElem .w24 (fun _ => 0) (byte i + 256 * byte (16 + i) + 65536 * byte (32 + i))
    if e.nar then narWord else BitVec.ofInt 64 (e.i * (2 ^ s : Nat)))

/-! ## Dice (R211) -/

/-- Rotation amounts of R211. -/
def diceRot (r i : Nat) : Nat :=
  (([[13, 15, 26, 6], [17, 29, 11, 5], [10, 23, 19, 7], [27, 3, 14, 21], [9, 18, 25, 12]] : List (List Nat)).getD (r % 5) []).getD i 0

/-- One round of dice: the state words and the key words. -/
def diceRound (ks : Nat → BitVec 32) (st : BitVec 32 × BitVec 32 × BitVec 32 × BitVec 32) (r : Nat) :
    BitVec 32 × BitVec 32 × BitVec 32 × BitVec 32 :=
  let x0 := st.1 + ks (r % 5)
  let x1 := st.2.1 + ks ((r + 1) % 5)
  let x2 := st.2.2.1 + ks ((r + 2) % 5)
  let x3 := st.2.2.2 + (ks ((r + 3) % 5) ^^^ BitVec.ofNat 32 (r * 0x01010101))
  let y1 := (x1 + x0).rotateLeft (diceRot r 0) ^^^ x2
  let y3 := (x3 + x2).rotateLeft (diceRot r 1) ^^^ x0
  let y0 := x0 + y3.rotateLeft (diceRot r 2)
  let y2 := x2 + y1.rotateLeft (diceRot r 3)
  (y0, y1, y2, y3)

/-- The key words of dice: four seed words and the folded fifth. -/
def diceKey (k : Nat → BitVec 32) (t : Nat) (i : Nat) : BitVec 32 :=
  if i < 4 then k i
  else k 0 ^^^ (k 1).rotateLeft 8 ^^^ (k 2).rotateLeft 16 ^^^ (k 3).rotateLeft 24 ^^^ BitVec.ofNat 32 0x2d5e91b7 ^^^
    BitVec.ofNat 32 t

/-- dice of R211. -/
def dice (k : Nat → BitVec 32) (step sid idx : Nat) : BitVec 32 :=
  let ks := diceKey k (idx / 2 ^ 32 % 65536)
  let st := (List.range 10).foldl (diceRound ks)
    (BitVec.ofNat 32 step, BitVec.ofNat 32 (step / 2 ^ 32), BitVec.ofNat 32 sid, BitVec.ofNat 32 idx)
  let x0 := st.1 + ks 0
  let x1 := st.2.1 + ks 1
  let x2 := st.2.2.1 + ks 2
  let x3 := st.2.2.2 + (ks 3 ^^^ BitVec.ofNat 32 0x0a0a0a0a)
  (x0 + x2) ^^^ (x1 + x3)

/-! ## SHA3-256 -/

/-- One step of the eight-bit shift register that gives the round constants (FIPS 202, algorithm 5). -/
def rcShift (r : Nat) : Nat := if 128 ≤ r then (2 * r) ^^^ 0x171 else 2 * r

/-- The constant of a round whose first register contents are `r`: bit 2^j - 1 is the register's lowest bit after
`j` steps, j = 0 to 6. -/
def rcWord (r : Nat) : Word :=
  ((List.range 7).foldl (fun (p : Nat × Nat) (j : Nat) => (p.1 + p.2 % 2 * 2 ^ (2 ^ j - 1), rcShift p.2)) (0, r)).1

/-- The sheets of lanes: rows of five, the lane (x, y) in row y. -/
def laneAt (a : List (List Word)) (x y : Nat) : Word := (a.getD (y % 5) []).getD (x % 5) 0

/-- Five rows of five lanes, each given by its place. -/
def lanes (f : Nat → Nat → Word) : List (List Word) := (List.range 5).map (fun y => (List.range 5).map (fun x => f x y))

/-- Theta: every lane takes in the parity of two neighbouring columns. -/
def theta (a : List (List Word)) : List (List Word) :=
  let par := a.foldl (fun (c r : List Word) => c.zipWith (· ^^^ ·) r) (List.replicate 5 0)
  let left := par.rotateRight 1
  let right := (par.rotateLeft 1).map (fun (w : Word) => w.rotateLeft 1)
  a.map (fun r => (r.zipWith (· ^^^ ·) left).zipWith (· ^^^ ·) right)

/-- Rho and pi in one walk: from (1, 0) on, each lane is turned by a triangular number and moves to where the walk
goes next, (y, 2x + 3y). -/
def rhoPi (a : List (List Word)) : List (List Word) :=
  let walk := (List.range 24).foldl (fun (p : List (Nat × Word) × Nat × Nat) (t : Nat) =>
    let x := p.2.1
    let y := p.2.2
    let y2 := (2 * x + 3 * y) % 5
    (p.1 ++ [(5 * y2 + y, (laneAt a x y).rotateLeft ((t + 1) * (t + 2) / 2 % 64))], y, y2)) (([] : List (Nat × Word)), 1, 0)
  lanes (fun x y => ((walk.1.find? (fun e => e.1 == 5 * y + x)).map (·.2)).getD (laneAt a 0 0))

/-- Chi, and the round's constant on the first lane. -/
def chiIota (b : List (List Word)) (rc : Word) : List (List Word) :=
  lanes (fun x y =>
    let v := laneAt b x y ^^^ (laneAt b (x + 2) y &&& ~~~ laneAt b (x + 1) y)
    if x = 0 ∧ y = 0 then v ^^^ rc else v)

/-- The permutation Keccak-f[1600] of 25 lanes: 24 rounds, each seven steps of the register on. -/
def keccakF (a : List Word) : List Word :=
  ((List.range 24).foldl (fun (p : List (List Word) × Nat) (_ : Nat) =>
    (chiIota (rhoPi (theta p.1)) (rcWord p.2), (List.range 7).foldl (fun (r _ : Nat) => rcShift r) p.2))
    (lanes (fun x y => a.getD (5 * y + x) 0), 1)).1.flatten

/-- One block of 136 bytes enters the first 17 lanes. -/
def keccakAbsorb (a : List Word) (blk : List Byte) : List Word :=
  keccakF ((List.range 25).map (fun i =>
    if i < 17 then a.getD i 0 ^^^ BitVec.ofNat 64 (leNat ((blk.drop (8 * i)).take 8)) else a.getD i 0))

/-- Absorb whole blocks, `n` of them. -/
def keccakBlocks (n : Nat) (a : List Word) (bs : List Byte) : List Word :=
  match n with
  | 0 => a
  | k + 1 => keccakBlocks k (keccakAbsorb a (bs.take 136)) (bs.drop 136)

/-- SHA3-256 of a byte string (FIPS 202). -/
def sha3 (msg : List Byte) : List Byte :=
  let padLen := 136 - msg.length % 136
  let pad : List Byte :=
    if padLen = 1 then [BitVec.ofNat 8 0x86]
    else [BitVec.ofNat 8 0x06] ++ List.replicate (padLen - 2) 0 ++ [BitVec.ofNat 8 0x80]
  let bs := msg ++ pad
  let a := keccakBlocks (bs.length / 136) (List.replicate 25 0) bs
  ((List.range 4).map (fun i => natLe 8 (a.getD i 0).toNat)).flatten

end Sys2Proof.Machine
end

