-- ==== Sys2Proof/Machine/Operands.lean ====
section
/-! DEFINITION. The operand forms: the operand format field, block layouts, local and global addresses,
the interleave, core-store operands and their checks, the geometry of machine and slice. -/

namespace Sys2Proof.Machine

/-! ## Operand format (R91 to R93) -/

/-- An operand format field taken apart. -/
structure Fmt where
  code : Code
  /-- Block size, 0 unscaled or unblocked. -/
  b : Nat
  /-- COL sharing. -/
  col : Bool
  affine : Bool
  deriving DecidableEq, Repr

/-- The format a 16-bit field spells; none where R92 refuses it. -/
def fmtOf (v : Nat) : Option Fmt :=
  let affine : Bool := v.testBit 9
  let col : Bool := v.testBit 8
  let blk : Nat := v / 64 % 4
  match codeOfNat (v % 16) with
  | none => none
  | some c =>
    if v / 1024 ≠ 0 ∨ v / 16 % 4 ≠ 0 then none
    else if c.isFloat ∧ (affine ∨ col ∨ blk ≠ 0) then none
    else if affine ∧ c ≠ .u8 ∧ c ≠ .u4 then none
    else if affine ∧ blk ≠ 0 then none
    else if col ∧ blk = 0 then none
    else some { code := c, b := if blk = 0 then 0 else 8 * 2 ^ blk, col := col, affine := affine }

/-- The operand is block-scaled. -/
def Fmt.scaled (f : Fmt) : Bool := f.b != 0

/-- Bytes of a row of `n` elements in one plane (R80, R84). -/
def Fmt.rowBytes (f : Fmt) (n : Nat) : Nat := ceilDiv (n * f.code.bits) 8

/-- Columns of R93: stationary, streamed, vector load, vector store, quantiser input, output. -/
inductive Use where
  | stationary | streamed | vload | vstore | qin | qout
  deriving DecidableEq, Repr

/-- Whether a unit accepts a code (R93). -/
def accepts (u : Use) (c : Code) : Bool :=
  match u with
  | .stationary => c == .s8 || c == .u8 || c == .s4 || c == .u4 || c == .cb4
  | .streamed => c == .s8 || c == .u8 || c == .s4 || c == .u4 || c == .w16 || c == .w24
  | .vload => true
  | .vstore => c != .cb4
  | .qin => c != .cb4
  | .qout => c == .s8 || c == .u8 || c == .s4 || c == .u4 || c == .w16 || c == .w24

/-- Ordinal of the block of an element (R90); `b` is not 0. -/
def ordinal (row col b : Nat) (share : Bool) (cols : Nat) : Nat :=
  if share then (row / b) * cols + col else row * (cols / b) + col / b

/-! ## Local addresses (R39 to R42) -/

/-- What a local address names. -/
inductive Place where
  | hbm
  | scratch (slice : Nat)
  | store (core : Nat) (off : Nat)
  | register (page : Nat) (off : Nat)
  | reserved
  deriving DecidableEq, Repr

/-- First address of LLC scratch, of the core stores, of register space. -/
def scratchBase : Nat := 0x020000000000
/-- First address of the core stores. -/
def storeBase : Nat := 0x021000000000
/-- First address of register space. -/
def regBase : Nat := 0x030000000000
/-- Bytes of a core store. -/
def storeSize : Nat := 0x400000

/-- The end of HBM (R39, R41). -/
def State.hbmEnd (s : State) : Nat := if s.boot.cfg.reserve then 0x016530000000 else 0x016800000000

/-- What a local address names. -/
def State.place (s : State) (a : Nat) : Place :=
  if a < s.hbmEnd then .hbm
  else if scratchBase ≤ a ∧ a < scratchBase + 0x20000000 then .scratch ((a - scratchBase) / 0x1000000)
  else if storeBase ≤ a ∧ a < storeBase + 144 * storeSize then
    .store ((a - storeBase) / storeSize) ((a - storeBase) % storeSize)
  else if regBase ≤ a ∧ a < regBase + 0x10000000 then .register ((a - regBase) / 4096) ((a - regBase) % 4096)
  else .reserved

/-- Local address of an offset of a core store. -/
def storeAddr (core off : Nat) : Nat := storeBase + core * storeSize + off

/-! ## Interleave (R293, R295) -/

/-- Granules of a pseudo-channel that addresses reach. -/
def State.granules (s : State) : Nat := if s.boot.cfg.reserve then 9363456 else 9437184

/-- hbm_map of R293: stack, pseudo-channel, granule index. -/
def State.hbmMap (s : State) (a : Nat) : Nat × Nat × Nat :=
  let g := a / 256
  if s.rf (pMEM 0) 0x100 1 0 = 0 then (g % 20, g / 20 % 32, g / 640)
  else
    let gd := 160 * s.granules
    let d := g / gd
    let h := g - d * gd
    (5 * d + h % 5, h / 5 % 32, h / 160)

/-- The local address of a granule: the inverse of R293. -/
def State.granuleAddr (s : State) (stk pch idx : Nat) : Nat :=
  if s.rf (pMEM 0) 0x100 1 0 = 0 then 256 * (idx * 640 + pch * 20 + stk)
  else 256 * ((stk / 5) * (160 * s.granules) + idx * 160 + pch * 5 + stk % 5)

/-- The package number of the pseudo-channel retired on a die, if there is one (R319). -/
def State.retiredOn (s : State) (die : Nat) : Option Nat :=
  (rangeFrom (160 * die) 160).find? (fun p => bitAt (s.reg (pMEM (p / 32)) 0x158) (p % 32))

/-- The package number of the pseudo-channel of a die that is retired or being retired, if there is one. -/
def State.retireeOn (s : State) (die : Nat) : Option Nat :=
  (rangeFrom (160 * die) 160).find? (fun p =>
    bitAt (s.reg (pMEM (p / 32)) 0x158) (p % 32) || (s.stack (p / 32)).retiring == some (p % 32))

/-- A granule of a pseudo-channel is served at its place in the reserve: its pseudo-channel is retired, or the copy of
its retirement has passed it (R319). -/
def State.moved (s : State) (stk pch idx : Nat) : Bool :=
  bitAt (s.reg (pMEM stk) 0x158) pch ||
    ((s.stack stk).retiring == some pch && decide (idx < (s.stack stk).copied))

/-- Stack, pseudo-channel and granule index that serve an address (R293, R319). -/
def State.physMap (s : State) (a : Nat) : Nat × Nat × Nat :=
  let m := s.hbmMap a
  if !s.moved m.1 m.2.1 m.2.2 then m
  else
    let die := m.1 / 5
    let own := 32 * m.1 + m.2.1 - 160 * die
    let k := m.2.2 % 159
    let p := 160 * die + (if k < own then k else k + 1)
    (p / 32, p % 32, 9363456 + m.2.2 / 159)

/-- Home slice of an HBM address (R295). -/
def State.homeSlice (s : State) (a : Nat) : Nat :=
  let m := s.hbmMap a
  8 * (m.1 / 5) + m.2.1 % 8

/-! ## Machine and slice (R43, R44, R330, R335) -/

/-- Node id of this node, from the straps (R43, R348). -/
def State.nodeId (s : State) : Nat := s.rf (pRTR 0) 0x100 14 0

/-- Coordinate of a node id on an axis: 0 X, 1 Y, 2 Z. -/
def coordOf (node axis : Nat) : Nat :=
  match axis with
  | 0 => node / 1024 % 32
  | 1 => node / 32 % 32
  | _ => node % 32

/-- The node id with a coordinate replaced. -/
def withCoord (node axis v : Nat) : Nat :=
  match axis with
  | 0 => node % 1024 + 1024 * (v % 32)
  | 1 => node / 1024 * 1024 + 32 * (v % 32) + node % 32
  | _ => node / 32 * 32 + v % 32

/-- The RTR page whose MACHINE, SLICE and TRANSIT hold: the lowest enabled one; the enabled pages
agree (R334). -/
def State.rtrPage (s : State) : Option Nat := (List.range 4).find? (fun d => s.enabled (pRTR d))

/-- Machine extent on an axis; 1 while no RTR page is enabled. -/
def State.mExt (s : State) (axis : Nat) : Nat :=
  match s.rtrPage with
  | none => 1
  | some d => coordOf (s.rf (pRTR d) 0x108 14 0) axis + 1

/-- WRAP flag of an axis. -/
def State.mWrap (s : State) (axis : Nat) : Bool :=
  match s.rtrPage with
  | none => false
  | some d => bitAt (s.reg (pRTR d) 0x108) (16 + axis)

/-- Slice origin on an axis; this node while no RTR page is enabled. -/
def State.sOrg (s : State) (axis : Nat) : Nat :=
  match s.rtrPage with
  | none => coordOf s.nodeId axis
  | some d => coordOf (s.rf (pRTR d) 0x110 45 31) axis

/-- Slice extent on an axis. -/
def State.sExt (s : State) (axis : Nat) : Nat :=
  match s.rtrPage with
  | none => 1
  | some d => coordOf (s.rf (pRTR d) 0x110 14 0) axis + 1

/-- RTR.SLICE.ID. -/
def State.sliceId (s : State) : Nat :=
  match s.rtrPage with
  | none => 0
  | some d => s.rf (pRTR d) 0x110 63 48

/-- Position of a coordinate in the slice along an axis (R335, R336). -/
def State.slicePos (s : State) (axis c : Nat) : Nat :=
  let e := s.mExt axis
  (c + e - s.sOrg axis % e) % e

/-- A coordinate lies in the slice. -/
def State.inSliceAxis (s : State) (axis c : Nat) : Bool :=
  (match s.rtrPage with
  | none => c == coordOf s.nodeId axis
  | some _ => decide (c < s.mExt axis) && decide (s.slicePos axis c < s.sExt axis))

/-- A node lies in the slice. -/
def State.inSlice (s : State) (node : Nat) : Bool :=
  (List.range 3).all (fun ax => s.inSliceAxis ax (coordOf node ax))

/-- The slice is a ring along an axis (R335). -/
def State.isRing (s : State) (axis : Nat) : Bool := s.sExt axis == s.mExt axis && s.mWrap axis

/-- The direction a port faces by a profile (R327), in the code of TOR.LINK.FACING; none under a
reserved profile. -/
def facingOf (profile port : Nat) : Option Nat :=
  match profile with
  | 0 => [1, 2, 4, 0, 2, 5, 1, 3, 4, 0, 3, 5][port]?
  | 1 => [1, 2, 1, 0, 2, 0, 1, 3, 4, 0, 3, 5][port]?
  | 2 => [1, 1, 2, 0, 0, 3, 1, 1, 4, 0, 0, 5][port]?
  | 3 => [1, 1, 1, 0, 0, 0, 1, 1, 1, 0, 0, 0][port]?
  | _ => none

/-- Sampled profile straps. -/
def State.profile (s : State) : Nat := s.rf (pRTR 0) 0x100 18 16

/-- TOR.LINK.STATE of a port. -/
def State.linkState (s : State) (p : Nat) : Nat := s.rf (pTOR p) 0x108 2 0

/-- A port is UP and enabled (R329). -/
def State.portUsable (s : State) (p : Nat) : Bool := s.linkState p == 2 && s.enabled (pTOR p)

/-- Ports UP and enabled that face a direction, ascending. -/
def State.dirPorts (s : State) (dir : Nat) : List Nat :=
  (List.range 12).filter (fun p => s.portUsable p && s.rf (pTOR p) 0x108 11 9 == dir)

/-! ## Global addresses (R43, R44) -/

/-- A global address taken apart: the node, and the local address. -/
structure GAddr where
  node : Nat
  loc : Nat
  deriving DecidableEq, Repr

/-- SELF is 1 and a node bit is 1 (R43). -/
def gBad (w : Word) : Bool := bitAt w 63 && fld w 62 48 != 0

/-- The node and local address that a global address names on this node. -/
def State.gaddr (s : State) (w : Word) : GAddr :=
  { node := if bitAt w 63 then s.nodeId else fld w 62 48, loc := fld w 47 0 }

/-! ## Core-store operands (R112, R114, R127) -/

/-- First byte and end of the core-store region of a context. -/
def State.storeRegion (s : State) (n x : Nat) : Nat × Nat :=
  if s.leaves n then (if x = 0 then (0, 0x200000) else (0x200000, 0x400000)) else (0, 0x400000)

/-- A byte range of the core store lies in the region of a context. -/
def State.inRegion (s : State) (n x off len : Nat) : Bool :=
  let r := s.storeRegion n x
  decide (r.1 ≤ off ∧ off + len ≤ r.2)

/-- Lines of the core store that a byte range covers. -/
def linesOf (off len : Nat) : List Nat :=
  if len = 0 then [] else rangeFrom (off / 64) ((off + len - 1) / 64 - off / 64 + 1)

/-- A refusal of a descriptor: code, and the word and lowest bit of the field (R136). -/
structure Refuse where
  code : Nat
  word : Nat
  bit : Nat
  deriving DecidableEq, Repr

/-- One condition of a descriptor check: the field where it is reported, its code, and whether it
holds. -/
abbrev Check := Nat × Nat × Nat × Bool

/-- The first condition that holds, fields ascending by word and lowest bit, and within a field by
code (R136). -/
def firstRefusal (cs : List Check) : Option Refuse :=
  let best : Option Check := cs.foldl (fun b c =>
    if c.2.2.2 then
      match b with
      | none => some c
      | some d =>
        if (c.1, c.2.1, c.2.2.1) = (d.1, d.2.1, d.2.2.1) then some d
        else if c.1 < d.1 ∨ (c.1 = d.1 ∧ (c.2.1 < d.2.1 ∨ (c.2.1 = d.2.1 ∧ c.2.2.1 < d.2.2.1))) then some c
        else some d
    else b) none
  best.map (fun c => { code := c.2.2.1, word := c.1, bit := c.2.1 })

/-- A reserved field of a descriptor, which must be 0. -/
def resv (d : Desc) (w hi lo : Nat) : Check := (w, lo, cRANGE, fld (d.word w) hi lo != 0)

/-- The later of two fields in the order of R136. -/
def laterField (a b : Nat × Nat) : Nat × Nat :=
  if a.1 < b.1 ∨ (a.1 = b.1 ∧ a.2 < b.2) then b else a

/-- The latest of a list of fields. -/
def latestField (l : List (Nat × Nat)) : Nat × Nat := l.foldl laterField (0, 0)

end Sys2Proof.Machine
end

