-- ==== Sys2Proof/Machine/Ops.lean ====
section
/-! DEFINITION. The shared operations: events and their records, refusals, freezes, fatal errors,
injection, power demand, memory with poison and undefined contents. -/

namespace Sys2Proof.Machine

/-! ## Records (R393 to R397) -/

/-- Offsets of the registers of a record ring: configuration, host address, key, pointers. -/
def ringOff (q : Option Nat) : Nat × Nat × Nat × Nat :=
  match q with
  | none => (0x138, 0x140, 0x148, 0x150)
  | some q => (qOff q 0x00, qOff q 0x10, qOff q 0x18, qOff q 0x28)

/-- A QP that is connected on a port. -/
def State.findQp (s : State) (port qpn : Nat) : Option Qp :=
  s.qps.find? (fun q => q.port == port && q.qpn == qpn)

/-- A QP is connected and not in the error state. -/
def State.qpUsable (s : State) (port qpn : Nat) : Bool :=
  match s.findQp port qpn with
  | none => false
  | some q => !q.err

/-- The state with a QP changed. -/
def State.mapQp (s : State) (port qpn : Nat) (f : Qp → Qp) : State :=
  { s with qps := s.qps.map (fun q => if q.port = port ∧ q.qpn = qpn then f q else q) }

/-- A ring can take a record: enabled, not full, its QP connected and not in error, and the Ethernet
datapaths running (R396, R397, R466). -/
def State.ringReady (s : State) (q : Option Nat) : Bool :=
  let o := ringOff q
  let cfg := s.reg pCFE o.1
  let head := s.rf pCFE o.2.2.2 31 0
  let tail := s.rf pCFE o.2.2.2 63 32
  bitAt cfg 0 && decide ((tail + 2 ^ 32 - head) % 2 ^ 32 ≠ 2 ^ fld cfg 27 24) &&
    s.qpUsable (fld cfg 29 28) (fld cfg 55 32) && s.live

/-- CFE.EVT_SEQ: the highest DSEQ at or below which no record is held or unacknowledged (R397). -/
def State.setEvtSeq (s : State) : State :=
  let open_ := (s.hcq.held ++ s.hcq.unacked).map (·.dseq) ++ s.hcq.aside
  let last : Nat := (s.reg pCFE 0x130).toNat
  s.setReg pCFE 0x128 (BitVec.ofNat 64 (open_.foldl (fun m d => min m (d - 1)) last))

/-- The 32 bytes of a record (R393). -/
def Rec.bytes (r : Rec) : List Byte :=
  natLe 8 r.dseq ++ natLe 8 r.w1.toNat ++ natLe 8 r.w2.toNat ++ natLe 8 r.w3.toNat

/-- RoCEv2 frames leave a port with the priority and the ECN capability that its page gives them (R387, R409). -/
def State.transmit (s : State) (p n : Nat) : State :=
  (s.emit (.frames p n (s.rf (pETH p) 0x100 26 24) (bitAt (s.reg (pETH p) 0x100) 32))).addReg (pETH p) 0x120 n

/-- A record is written into its ring (R394 step 8). -/
def State.writeRec (s : State) (r : Rec) : State :=
  let o := ringOff r.queue
  let cfg := s.reg pCFE o.1
  let tail := s.rf pCFE o.2.2.2 63 32
  let port := fld cfg 29 28
  let qpn := fld cfg 55 32
  let slot := tail % 2 ^ fld cfg 27 24
  let addr := (s.reg pCFE o.2.1).toNat + 32 * slot
  let s := (s.emit (.rdmaWriteOut port qpn (s.rf pCFE o.2.2.1 31 0) addr r.bytes)).transmit port 1
  let s := s.setRf pCFE o.2.2.2 63 32 (tail + 1)
  { s with hcq := { s.hcq with unacked := s.hcq.unacked ++ [{ r with port := port, qpn := qpn }] } }

/-- Held records are written, in DSEQ order, as far as their rings take them (R396, R397). -/
def State.flushRecs (s : State) : State :=
  let go := s.hcq.held.foldl (fun (acc : State × List Rec) r =>
    if acc.1.ringReady r.queue then (acc.1.writeRec r, acc.2) else (acc.1, acc.2 ++ [r])) (s, [])
  ({ go.1 with hcq := { go.1.hcq with held := go.2 } } : State).setEvtSeq

/-- The next DSEQ, and the state that has assigned it. -/
def State.nextDseq (s : State) : Nat × State :=
  let s := s.addReg pCFE 0x130 1
  ((s.reg pCFE 0x130).toNat, s)

/-- An event record is queued, or dropped and counted when 256 are held; the flag says dropped. -/
def State.queueEvent (s : State) (page bit : Nat) : State × Bool :=
  let d := s.nextDseq
  let s := d.2
  let r : Rec := {
    dseq := d.1
    w1 := BitVec.ofNat 64 (page + 65536 * bit)
    w2 := s.reg page 0x038
    w3 := BitVec.ofNat 64 s.stepNo
    queue := none }
  let full := decide (256 ≤ (s.hcq.held.filter (fun r => r.queue == none)).length)
  if full && !s.ringReady none then ((s.addReg pCFE 0x158 1).setEvtSeq, true)
  else ({ s with hcq := { s.hcq with held := s.hcq.held ++ [r] } }.flushRecs, false)

/-- Records by rising DSEQ, with one more. -/
def insRec (l : List Rec) (r : Rec) : List Rec :=
  match l with
  | [] => [r]
  | x :: t => if r.dseq < x.dseq then r :: x :: t else x :: insRec t r

/-- A completion record is queued (R394 step 7), with the DSEQ set aside for it if there is one. -/
def State.queueCompletion (s : State) (q : Nat) (hseq : Nat) (status cls opcode : Nat) (result : Nat) (aside : Option Nat) : State :=
  let d := (match aside with
    | none => s.nextDseq
    | some n => (n, { s with hcq := { s.hcq with aside := s.hcq.aside.filter (fun m => m != n) } }))
  let s := d.2
  let r : Rec := {
    dseq := d.1
    w1 := BitVec.ofNat 64 hseq
    w2 := BitVec.ofNat 64 (status + 2 ^ 16 * cls + 2 ^ 24 * q + 2 ^ 32 * opcode)
    w3 := BitVec.ofNat 64 result
    queue := some q }
  { s with hcq := { s.hcq with held := insRec s.hcq.held r } }.flushRecs

/-! ## Events (R65) -/

/-- The bit becomes 1 and EVT_COUNT advances. -/
def State.setEvent (s : State) (page bit : Nat) : State :=
  (s.setReg page 0x030 (setBit (s.reg page 0x030) bit true)).addReg page 0x038 1

/-- A set event is reported when it is not masked; a dropped report raises EVQ_LOST, whose own
report, dropped too, raises nothing more. -/
def State.reportEvent (s : State) (page bit : Nat) : State :=
  if bitAt (s.reg page 0x040) bit then s
  else
    let r := s.queueEvent page bit
    if r.2 then
      let s := r.1.setEvent pCFE 3
      if bitAt (s.reg pCFE 0x040) 3 then s else (s.queueEvent pCFE 3).1
    else r.1

/-- An event is set, counted and reported. -/
def State.raise0 (s : State) (page bit : Nat) : State := (s.setEvent page bit).reportEvent page bit

/-! ## Job state (R398, R399) -/

/-- The job state changes, which raises JOB_STATE. -/
def State.setJob (s : State) (st : Nat) : State :=
  if s.job = st then s else (s.setRf pCFE 0x100 2 0 st).raise0 pCFE 0

/-- The job state changes; while frozen, the state before FROZEN does (R476). -/
def State.setJobUnder (s : State) (st : Nat) : State :=
  if s.job = 5 then s.setRf pCFE 0x100 6 4 st else s.setJob st

/-- The job state that counts: the one before FROZEN while frozen. -/
def State.jobUnder (s : State) : Nat := if s.job = 5 then s.rf pCFE 0x100 6 4 else s.job

/-! ## Power demand (R6, R421, R432) -/

/-- Usable slots of a cluster under the harvest selection in force. -/
def State.usable (s : State) (die cl : Nat) : List Nat :=
  (List.range 5).filter (fun k => !s.boot.harvest.contains (40 * die + 5 * cl + k))

/-- Slots that a cluster enables (R421): five in the four lowest clusters with five usable slots, else
the four lowest usable ones. -/
def State.slots (s : State) (die cl : Nat) : List Nat :=
  let fives := (List.range 8).filter (fun c => (s.usable die c).length == 5)
  if (fives.take 4).contains cl then s.usable die cl else (s.usable die cl).take 4

/-- Enabled cores of a cluster. -/
def State.clusterCores (s : State) (die cl : Nat) : Nat := (s.slots die cl).length

/-- Logical number of the first core of a cluster (R6). -/
def State.clusterFirst (s : State) (die cl : Nat) : Nat :=
  36 * die + ((List.range cl).map (s.clusterCores die)).foldl (· + ·) 0

/-- The cluster of a logical core, within its die. -/
def State.clusterOf (s : State) (n : Nat) : Nat :=
  let d := dieOf n
  ((List.range 8).find? (fun c =>
    decide (s.clusterFirst d c ≤ n ∧ n < s.clusterFirst d c + s.clusterCores d c))).getD 7

/-- The cluster island of a logical core. -/
def State.islandOf (s : State) (n : Nat) : Nat := 8 * dieOf n + s.clusterOf n

/-- The physical slot of a logical core: 40 * die + 5 * cluster + slot. -/
def State.slotOf (s : State) (n : Nat) : Nat :=
  let d := dieOf n
  let c := s.clusterOf n
  40 * d + 5 * c + (s.slots d c).getD (n - s.clusterFirst d c) 0

/-- VIN of the last window in mV; 12 V before the first window. -/
def State.vinMv (s : State) : Nat :=
  let v := s.rf (pPWR 32) 0x150 15 0
  if v = 0 then 12000 else v

/-- A demand of R432, given at VID 30 and 12 V in 10 mA, at another VID and VIN, truncated. -/
def State.scaleDemand (s : State) (vid base : Nat) : Nat :=
  base * (600 + 5 * vid) ^ 3 * 12000 / (750 ^ 3 * s.vinMv)

/-- VID_NOW of a cluster island. -/
def State.vidNow (s : State) (i : Nat) : Nat := s.rf (pPWR i) 0x108 5 0

/-- Floor demand of a cluster island. -/
def State.floorDemand (s : State) (i : Nat) : Nat := s.scaleDemand (s.vidNow i) 60

/-- Full demand of a cluster island at a VID. -/
def State.fullDemand (s : State) (i vid : Nat) : Nat :=
  s.scaleDemand vid 60 + s.clusterCores (i / 8) (i % 8) *
    (s.scaleDemand vid 25 + 4 * s.scaleDemand vid 18 + s.scaleDemand vid 10 + s.scaleDemand vid 3)

/-! ## Freezes (R465 to R467) -/

/-- Ports an FRZ or RES symbol of a scope goes out on: UP, but for the one it came in on; within the
slice, those whose partner lies in it (R467). -/
def State.symbolPorts (s : State) (scope : Nat) (except : Option Nat) : List Nat :=
  (List.range 12).filter (fun p =>
    s.linkState p == 2 && except != some p &&
      (scope == 2 || (scope == 1 && s.inSlice (s.rf (pTOR p) 0x110 14 0))))

/-- Every controller takes its stack into self-refresh: a hold in progress is abandoned and its retrain pends
again (R466 step 4); WCB sectors leave (R302). -/
def State.selfRefresh (s : State) : State :=
  (List.range 20).foldl (fun s i =>
    let k := s.stack i
    let s := s.setStack i { k with
      pend := (match k.hold with
        | none => k.pend
        | some c => insSet k.pend c)
      go := (match k.hold with
        | none => k.go
        | some c => insSet k.go c)
      hold := none
      awake := false }
    if k.hold = none then s else s.setRf (pMEM i) 0x140 1 1 0) s

/-- Envelope of an island (R440). -/
def State.envelope (s : State) (i : Nat) : Nat := s.rf (pPWR i) 0x110 15 0

/-- The envelope that an island has once its ramp, if any, has ended. -/
def State.envelopeGoal (s : State) (i : Nat) : Nat := (s.island i).target.getD (s.envelope i)

/-- The envelope that releases can count on: a ramp may be taking it down (R440). -/
def State.envelopeNow (s : State) (i : Nat) : Nat := min (s.envelope i) (s.envelopeGoal i)

/-- A ramp of an island to a target is requested: it takes its place among the token requests unless it
has one or a ramp is in progress (R441, R442). -/
def State.requestRamp (s : State) (i target : Nat) : State :=
  let l := s.island i
  let s := s.setIsland i { l with target := some target }
  if l.target.isSome ∨ s.pwr.tokens.contains i then s
  else { s with pwr := { s.pwr with tokens := s.pwr.tokens ++ [i] } }

/-- An island that is above a level, or on its way there, ramps down to it. -/
def State.rampDown (s : State) (i level : Nat) : State :=
  if level < max (s.envelope i) (s.envelopeGoal i) then s.requestRamp i level else s

/-- A freeze of the node (R466): kind 1 debug or 2 fatal, trigger of R465, scope, origin, sequence
number, the kind the symbol carries, and the port a symbol came in on. -/
def State.freeze (s : State) (kind trig scope origin seq symKind : Nat) (inPort : Option Nat) : State :=
  let st : Nat := 2 ^ 63 + origin * 2 ^ 32 + seq * 2 ^ 16 + scope * 2 ^ 8 + trig * 2 ^ 4 + kind
  let was := s.frozen
  let s := s.setReg pSHT 0x110 (BitVec.ofNat 64 st)
  let s := if scope = 0 then s else
    (s.symbolPorts scope inPort).foldl (fun s p => s.emit (.frz p scope symKind origin seq)) s
  if was ≠ 0 then s
  else
    let s := if bitAt (s.reg pSHT 0x100) 5 then { s with board := { s.board with shutter := true } } else s
    let s := s.selfRefresh
    let s := (List.range 32).foldl (fun s i => s.rampDown i (s.floorDemand i)) s
    let d := s.draw
    let s := d.2
    let s := s.setRf pSHT 0x128 31 0 (Config.freeNat d.1 % 2001)
    let s := s.setRf pSHT 0x128 63 32 (s.rf pSHT 0x128 63 32 + 1)
    let s := s.setRf pCFE 0x100 6 4 s.job
    (s.setJob 5).raise0 pSHT 0

/-- A freeze that this node triggers: it takes the next sequence number (R467). -/
def State.freezeHere (s : State) (kind trig scope : Nat) : State :=
  let seq := s.shut.seq
  ({ s with shut := { s.shut with seq := (seq + 1) % 65536 } } : State).freeze kind trig scope s.nodeId seq kind none

/-- SHT.TRIG is armed, of a kind, and not used up (R474). -/
def State.trigArmed (s : State) (kind : Nat) : Bool :=
  s.enabled pSHT && s.rf pSHT 0x118 1 0 == kind && !s.shut.trigUsed && s.live

/-- A match of SHT.TRIG fires once (R465, R474). -/
def State.trigFire (s : State) : State :=
  ({ s with shut := { s.shut with trigUsed := true } } : State).freezeHere 1 3 (s.rf pSHT 0x100 1 0)

/-- An event is set, counted and reported, and may match SHT.TRIG. -/
def State.raise (s : State) (page bit : Nat) : State :=
  let s := s.raise0 page bit
  if s.trigArmed 3 && s.rf pSHT 0x118 39 24 == page && s.rf pSHT 0x118 45 40 == bit then s.trigFire else s

/-- Several events of one page. -/
def State.raiseAll (s : State) (page : Nat) (bits : List Nat) : State := bits.foldl (fun s b => s.raise page b) s

/-- The event when the condition holds. -/
def State.raiseIf (s : State) (p : Bool) (page bit : Nat) : State := if p then s.raise page bit else s

/-! ## Refusals of register writes (R56, R57) -/

/-- REASON records an outcome. -/
def State.setReason (s : State) (page off code src : Nat) : State :=
  s.setReg page 0x028 (BitVec.ofNat 64 (off * 2 ^ 32 + src * 2 ^ 24 + code))

/-! ## RAS (R452, R454, R475) -/

/-- A contained error is counted and reported. -/
def State.contained (s : State) : State := (s.addReg (pRAS 0) 0x110 1).raise (pRAS 0) 1

/-- ALERT_N is asserted. -/
def State.alert (s : State) : State := { s with board := { s.board with alert := true } }

/-- RAS.FATAL records the first fatal error since reset (R475). -/
def State.recordFatal (s : State) (detector die unit : Nat) (injected : Bool) : State :=
  let v : Nat := 2 ^ 63 + b2n injected * 2 ^ 62 + detector * 2 ^ 40 + die * 2 ^ 32 + unit * 2 ^ 16
  if bitAt (s.reg (pRAS 0) 0x108) 63 then s else s.setReg (pRAS 0) 0x108 (BitVec.ofNat 64 v)

/-- A fatal error is counted: over the life of the package, and on the die of the detector. -/
def State.countFatal (s : State) (detector die : Nat) : State :=
  let t : State := { s with boot := { s.boot with fatals := s.boot.fatals + 1 } }
  if detector == 5 then t else t.addReg (pRAS (1 + die)) 0x108 1

/-- The freeze of a fatal error, which a fatal freeze that stands absorbs (R465, R476). -/
def State.fatalFreeze (s : State) : State :=
  if s.frozen == 2 then s else s.freezeHere 2 4 (s.rf pSHT 0x100 3 2)

/-- A fatal error: recorded when it is the first, counted, reported, ALERT_N asserted, and the node
freezes for good (R452, R454, R465 trigger 4). -/
def State.fatal (s : State) (detector die unit : Nat) (injected : Bool) : State :=
  ((((s.recordFatal detector die unit injected).countFatal detector die).raise (pRAS 0) 0).alert).fatalFreeze

/-! ## Injection (R459, R517) -/

/-- A point of a page is armed (R459). -/
def State.armed (s : State) (page pt : Nat) : Bool :=
  s.rf page 0x048 1 0 != 0 && s.rf page 0x048 15 8 == pt && bitAt (s.reg page 0x050) 0

/-- One occurrence of a point of a page: whether an armed injection takes effect. -/
def State.inject (s : State) (page pt : Nat) : Bool × State :=
  let r := s.reg page 0x048
  let mode := fld r 1 0
  if mode = 0 ∨ fld r 15 8 ≠ pt ∨ !bitAt (s.reg page 0x050) 0 then (false, s)
  else if mode = 1 then
    (true, (s.setRf page 0x050 0 0 0).setRf page 0x050 47 16 (s.rf page 0x050 47 16 + 1))
  else
    let n := Tab.get s.inj 0 page + 1
    let fire := decide (n % fld r 39 16 = 0)
    let s := { s with inj := Tab.set s.inj 0 page (if fire then 0 else n) }
    (fire, if fire then s.setRf page 0x050 47 16 (s.rf page 0x050 47 16 + 1) else s)

/-- The codewords of a line that pass up to the end of a packet or frame, for a point that counts codewords: how many there are
since the last, with those in which nothing travels, and whether one that an injection strikes is the packet's are open (R517,
log 65).  Whether it is. -/
def State.injectCodewords (s : State) (page pt : Nat) : Bool × State :=
  if !s.armed page pt then (false, s)
  else
    let d := s.draw
    let r := (List.range (1 + Config.freeNat d.1)).foldl (fun (acc : Bool × State) (_ : Nat) =>
      let x := acc.2.inject page pt
      (acc.1 || x.1, x.2)) (false, d.2)
    let d := r.2.draw
    (r.1 && Config.freeBool d.1, d.2)

/-- `n` occurrences of a point: whether any took effect, and the first that did. -/
def State.injectMany (s : State) (page pt n : Nat) : Option Nat × State :=
  (List.range n).foldl (fun (acc : Option Nat × State) i =>
    let r := acc.2.inject page pt
    (if r.1 && acc.1.isNone then some i else acc.1, r.2)) (none, s)

/-! ## Memory bytes, poison, undefined contents (R302, R314) -/

/-- The undefined region an address lies in, by its event number; the newest prevails. -/
def Mem.undefAt (m : Mem) (a : Nat) : Option Nat :=
  (m.undef.find? (fun r => decide (r.1 ≤ a ∧ a < r.2.1))).map (fun r => r.2.2)

/-- A byte of memory as stored. -/
def Mem.byte (m : Mem) (a : Nat) : Byte :=
  match Tab.find m.cells a with
  | some v => v
  | none =>
    match m.undefAt a with
    | none => 0
    | some g => Config.freeByte g a

/-- The memory with a byte written, in canonical form. -/
def Mem.putByte (m : Mem) (a : Nat) (v : Byte) : Mem :=
  { m with cells := if m.isDef a v then Tab.del m.cells a else Tab.put m.cells a v }

/-- A line is poisoned. -/
def Mem.lineBad (m : Mem) (line : Nat) : Bool :=
  match Tab.find m.poison line with
  | some v => v == 2
  | none =>
    match m.undefAt (line * 64) with
    | none => false
    | some g => Config.freePoison g line

/-- The memory with the poison of a line set. -/
def Mem.setPoison (m : Mem) (line : Nat) (bad : Bool) : Mem :=
  { m with poison :=
      if bad then Tab.put m.poison line 2
      else if m.isClean line 1 then Tab.del m.poison line else Tab.put m.poison line 1 }

/-- The memory with a list of bytes written from an address on; every line that they cover in full
becomes clean (R314). -/
def Mem.putBytes (m : Mem) (a : Nat) (bs : List Byte) : Mem :=
  match bs with
  | [] => m
  | b :: r => Mem.putBytes (m.putByte a b) (a + 1) r

/-- Lines that `len` bytes from `a` on cover in full. -/
def fullLines (a len : Nat) : List Nat :=
  (rangeFrom (a / 64) (len / 64 + 1)).filter (fun l => decide (a ≤ l * 64 ∧ l * 64 + 64 ≤ a + len))

/-- A write: the bytes, and the lines covered in full become clean. -/
def Mem.write (m : Mem) (a : Nat) (bs : List Byte) : Mem :=
  (fullLines a bs.length).foldl (fun m l => m.setPoison l false) (m.putBytes a bs)

/-- The contents of a region become undefined (R314). -/
def Mem.makeUndef (m : Mem) (lo hi gen : Nat) : Mem :=
  { cells := Tab.delRange m.cells lo hi
    poison := Tab.delRange m.poison (lo / 64) (hi / 64)
    undef := (lo, hi, gen) :: m.undef.filter (fun r => !(decide (lo ≤ r.1) && decide (r.2.1 ≤ hi))) }

/-- Bytes of memory as stored. -/
def State.bytes (s : State) (a n : Nat) : List Byte := (List.range n).map (fun i => s.mem.byte (a + i))

/-- The state with a region undefined: the event's number is a draw. -/
def State.undefine (s : State) (lo hi : Nat) : State :=
  let d := s.draw
  { d.2 with mem := d.2.mem.makeUndef lo hi d.1 }

/-- A write to core store: the bytes lose their block tags, and full lines become clean. -/
def State.writeStore (s : State) (core off : Nat) (bs : List Byte) : State :=
  let s := { s with mem := s.mem.write (storeAddr core off) bs }
  let c := s.core core
  if c.tags = [] then s else s.setCore core { c with tags := Tab.delRange c.tags off (off + bs.length) }

/-- Bytes of a core store. -/
def State.storeBytes (s : State) (core off n : Nat) : List Byte := s.bytes (storeAddr core off) n

/-- One byte of a core store, as a number. -/
def State.storeByte (s : State) (core off : Nat) : Nat := (s.mem.byte (storeAddr core off)).toNat

/-- A little-endian number in a core store. -/
def State.storeNat (s : State) (core off n : Nat) : Nat := leNat (s.storeBytes core off n)

/-- A core-store line is poisoned. -/
def State.storeBad (s : State) (core line : Nat) : Bool := s.mem.lineBad (storeAddr core 0 / 64 + line)

/-- The block tag of a core-store byte, where a tagged stream wrote it (R94). -/
def State.tagAt (s : State) (core off : Nat) : Option Nat :=
  match Tab.find (s.core core).tags off with
  | none => none
  | some t => some (t - 1)

/-- The lines of a core store become resident, or not (R120). -/
def State.setResident (s : State) (core : Nat) (lines : List Nat) (v : Bool) : State :=
  let c := s.core core
  s.setCore core { c with resident := lines.foldl (fun r l => if v then insSet r l else delSet r l) c.resident }

/-- A core-store line is pinned by a released instruction (R120). -/
def State.pinned (s : State) (core line : Nat) : Bool := (s.core core).pins.any (fun p => p.line == line)

/-- A pseudo-channel is fenced (R316). -/
def State.pchFenced (s : State) (a : Nat) : Bool :=
  let m := s.physMap a
  (s.stack m.1).fenced.contains m.2.1

/-- A line that a failed training has lost and that has not been written in full since: its pseudo-channel was
fenced, or was retired with every granule poisoned (R316). -/
def State.lineStale (s : State) (line : Nat) : Bool :=
  let l := s.hbmMap (line * 64)
  let m := s.physMap (line * 64)
  ((s.stack m.1).stale.contains m.2.1 || (s.stack l.1).lost.contains l.2.1) && !(s.stack l.1).fresh.contains line

/-- A line of memory reads as poisoned: by its own poison, or because its pseudo-channel is fenced or has been. -/
def State.lineBad (s : State) (line : Nat) : Bool :=
  s.mem.lineBad line || (decide (line * 64 < s.hbmEnd) && (s.pchFenced (line * 64) || s.lineStale line))

/-- Lines of memory that a byte range covers. -/
def memLines (a len : Nat) : List Nat := linesOf a len

end Sys2Proof.Machine
end

