-- ==== Sys2Proof/Machine/Control.lean ====
section
/-! DEFINITION. Contexts, sync objects and transactions as the other operations meet them: packets that
the node sends, wakes and cancels, abort causes, aborted tiles, context faults and resets (R117, R131,
R232 to R250, R271 to R281). -/

namespace Sys2Proof.Machine

/-! ## Packets that the node sends (R333) -/

/-- Payload units of a packet. -/
def pktUnits (p : Packet) : Nat := ceilDiv p.payload.length 64

/-- TYPE of a packet. -/
def pktType (p : Packet) : Nat := fld p.w0 5 0
/-- DST of a packet. -/
def pktDst (p : Packet) : Nat := fld p.w0 62 48
/-- SRC of a packet. -/
def pktSrc (p : Packet) : Nat := fld p.w0 46 32
/-- VC of a packet. -/
def pktVc (p : Packet) : Nat := fld p.w0 7 6
/-- TAG of a packet. -/
def pktTag (p : Packet) : Nat := fld p.w1 63 48
/-- ADDR of a packet. -/
def pktAddr (p : Packet) : Nat := fld p.w1 47 0
/-- STATUS of a packet. -/
def pktStatus (p : Packet) : Nat := fld p.w2 39 24

/-- Virtual channel of a TYPE; none for a reserved TYPE. -/
def vcOfType (t : Nat) : Option Nat :=
  match t with
  | 0x01 => some 0 | 0x02 => some 0 | 0x03 => some 0 | 0x04 => some 1
  | 0x08 => some 1 | 0x09 => some 1 | 0x0A => some 1 | 0x0B => some 1 | 0x0C => some 1
  | 0x10 => some 2 | 0x18 => some 3
  | _ => none

/-- A packet of this node: destination, TYPE, LEN_M1, TAG, ADDR, word 2, ARG, payload. -/
def State.mkPacket (s : State) (dst type lenM1 tag addr : Nat) (w2 : Nat) (arg : Word) (payload : List Byte) : Packet :=
  { w0 := BitVec.ofNat 64 (dst * 2 ^ 48 + s.nodeId * 2 ^ 32 + s.sliceId * 2 ^ 16 + lenM1 * 2 ^ 8
      + (vcOfType type).getD 0 * 2 ^ 6 + type)
    w1 := BitVec.ofNat 64 (tag * 2 ^ 48 + addr)
    w2 := BitVec.ofNat 64 w2
    w3 := arg
    payload := payload }

/-- A packet enters the injection point of a die. -/
def State.sendPacket (s : State) (die : Nat) (p : Packet) : State :=
  { s with link := { s.link with inj := s.link.inj ++ [(die, p)] } }

/-- A request tag, and the state that has assigned it. -/
def State.newTag (s : State) : Nat × State :=
  (s.link.nextTag, { s with link := { s.link with nextTag := (s.link.nextTag + 1) % 65536 } })

/-! ## Sync objects (R232, R233, R246) -/

/-- Key of an object: unit (0-143 core ports, 144 + d die units), kind (0 tally, 1 pool), index. -/
def objKey (unit kind idx : Nat) : Nat := 16384 * unit + 8192 * kind + idx

/-- A sync object. -/
def State.obj (s : State) (unit kind idx : Nat) : Obj := Tab.get s.sync.objs {} (objKey unit kind idx)

/-- The state with a sync object set. -/
def State.setObj (s : State) (unit kind idx : Nat) (o : Obj) : State :=
  { s with sync := { s.sync with objs := Tab.set s.sync.objs {} (objKey unit kind idx) o } }

/-- The context that owns a core-scope object (R233). -/
def State.coreOwner (s : State) (core kind idx : Nat) : Nat :=
  if s.leaves core ∧ (if kind = 0 then 64 else 16) ≤ idx then 1 else 0

/-- An object is orphaned (R247): a core-scope one while its context has been reset and not started
again. -/
def State.orphaned (s : State) (unit kind idx : Nat) : Bool :=
  if unit < 144 then
    let c := s.ctx unit (s.coreOwner unit kind idx)
    c.epoch != c.ownEpoch
  else (s.obj unit kind idx).orphaned

/-- Slots of R250: the contexts of the package, the torus ports, the host, the CFE. -/
def slotCount : Nat := 302

/-- A unit has served a request of a slot: in fixed-order mode its rotation goes on behind it (R250). Units: die sync
units 0-3, LLC slices 100-131, HBM controllers 200-219, collective engines 300-303. -/
def State.tookSlot (s : State) (unit slot : Nat) : State :=
  if s.fixedOrder then { s with sync := { s.sync with rot := Tab.set s.sync.rot 0 unit ((slot + 1) % slotCount) } } else s

/-- How far a slot lies behind the place of a unit's rotation (R250). -/
def State.slotsAway (s : State) (unit slot : Nat) : Nat := (slot + slotCount - Tab.get s.sync.rot 0 unit) % slotCount

/-- Comparison of a tally with a target (R236). -/
def reached (v t : Nat) : Bool := decide ((v + 2 ^ 64 - t % 2 ^ 64) % 2 ^ 64 < 2 ^ 63)

/-- Watches in use on a die unit, and their peak (SYN.WATCHES). -/
def State.countWatches (s : State) (unit : Nat) : State :=
  if unit < 144 then s
  else
    let n := (s.sync.objs.filter (fun e => e.1 / 16384 == unit)).foldl (fun m e => m + e.2.waiters.length) 0
    let s := s.setRf (pSYN unit) 0x188 12 0 n
    s.setRf (pSYN unit) 0x188 28 16 (max n (s.rf (pSYN unit) 0x188 28 16))

/-- A wake leaves for a waiter of the object with a key: over its wire or the mesh, or as a WAKE packet
that names the object as the descriptor did (R243, R333). -/
def State.sendWake (s : State) (key : Nat) (w : Waiter) (status : Nat) : State :=
  if w.node = s.nodeId then
    { s with sync := { s.sync with wakes := s.sync.wakes ++ [{ core := Fin.ofNat 144 w.core, ctx := Fin.ofNat 2 w.ctx, tag := w.tag, status := status }] } }
  else
    let die := key / 16384 - 144
    s.sendPacket die (s.mkPacket w.node 0x0C 0 w.tag (die * 2 ^ 36 + 2 ^ 32 + key % 16384) (status * 2 ^ 24) 0 [])

/-- The watches of a tally that its value satisfies end, in registration order (R243 step 6). -/
def State.evalTally (s : State) (unit idx : Nat) : State :=
  let o := s.obj unit 0 idx
  let sat := o.waiters.filter (fun w => reached o.value w.amount)
  let s := s.setObj unit 0 idx { o with waiters := o.waiters.filter (fun w => !reached o.value w.amount) }
  (sat.foldl (fun s w => s.sendWake (objKey unit 0 idx) w cOK) s).countWatches unit

/-- The takers of a pool that its value covers, from the first on (R239): what is left, the takers
served, the takers that remain. -/
def servePool (value : Nat) (ws : List Waiter) : Nat × List Waiter × List Waiter :=
  match ws with
  | [] => (value, [], [])
  | w :: r =>
    if w.amount ≤ value then
      let x := servePool (value - w.amount) r
      (x.1, w :: x.2.1, x.2.2)
    else (value, [], w :: r)

/-- The waiting takers of a pool are served as far as its value covers them (R239). -/
def State.evalPool (s : State) (unit idx : Nat) : State :=
  let o := s.obj unit 1 idx
  let x := servePool o.value o.waiters
  let s := s.setObj unit 1 idx { o with value := x.1, waiters := x.2.2 }
  (x.2.1.foldl (fun s w => s.sendWake (objKey unit 1 idx) w cOK) s).countWatches unit

/-- Who makes an addition: node, core (0xFF host, 0xFE CFE), context, address, step. -/
structure Signaller where
  node : Nat
  core : Nat
  ctx : Nat
  pc : Nat
  step : Nat
  deriving DecidableEq, Repr

/-- The object with its last signaller recorded (SYN.LAST_SRC, LAST_PC, LAST_STEP). -/
def Obj.signalled (o : Obj) (a : Signaller) : Obj :=
  { o with lastValid := true, lastNode := a.node, lastCore := a.core, lastCtx := a.ctx, lastPc := a.pc, lastStep := a.step }

/-- An addition to a tally (R235, R236, R247): the code it draws, and the state. -/
def State.addTally (s : State) (unit idx amount : Nat) (a : Signaller) : Nat × State :=
  if s.orphaned unit 0 idx then (0x41, s)
  else
    let o := s.obj unit 0 idx
    let v := o.value + amount
    let wrapped := decide (2 ^ 64 ≤ v)
    let s := s.setObj unit 0 idx ({ o with value := v % 2 ^ 64, wrap := o.wrap || wrapped }.signalled a)
    let s := if wrapped then s.raise (pSYN unit) 3 else s
    (cOK, s.evalTally unit idx)

/-- An addition to a pool (R238, R239, R247). -/
def State.addPool (s : State) (unit idx amount : Nat) (a : Signaller) : Nat × State :=
  if s.orphaned unit 1 idx then (0x41, s)
  else
    let o := s.obj unit 1 idx
    if 2 ^ 31 ≤ o.value + amount then (cRANGE, s)
    else
      let s := s.setObj unit 1 idx ({ o with value := o.value + amount }.signalled a)
      (cOK, s.evalPool unit idx)

/-- The waiters of an object are all released with a status, in registration order (R247). -/
def State.releaseWaiters (s : State) (key status : Nat) : State :=
  let o := Tab.get s.sync.objs {} key
  let s := { s with sync := { s.sync with objs := Tab.set s.sync.objs {} key { o with waiters := [] } } }
  (o.waiters.foldl (fun s w => s.sendWake key w status) s).countWatches (key / 16384)

/-- The waits of a requester with a tag are withdrawn from a unit (R245, R248); the flag says whether
one was still registered. -/
def State.freeWatch (s : State) (unit node core ctx tag : Nat) : Bool × State :=
  let mine (w : Waiter) : Bool := w.node == node && w.core == core && w.ctx == ctx && w.tag == tag
  let held := s.sync.objs.any (fun e => e.1 / 16384 == unit && e.2.waiters.any mine)
  let keys := (s.sync.objs.filter (fun e => e.1 / 16384 == unit && e.2.waiters.any mine)).map (·.1)
  let s := keys.foldl (fun s k =>
    let o := Tab.get s.sync.objs {} k
    { s with sync := { s.sync with objs := Tab.set s.sync.objs {} k { o with waiters := o.waiters.filter (fun w => !mine w) } } }) s
  let s := keys.foldl (fun s k => if k % 16384 / 8192 = 1 then s.evalPool unit (k % 8192) else s) s
  (held, s.countWatches unit)

/-- The sync unit payload of R519. -/
def syncUnit (pc step core ctx epoch flags : Nat) : List Byte :=
  natLe 8 pc ++ natLe 8 step ++ natLe 8 (core + 256 * ctx + 65536 * epoch) ++ natLe 8 flags ++ List.replicate 32 0

/-- The instruction in flight is a wait: TWAIT, or PTAKE with WAIT = 1. -/
def WaitSt.isWait (w : WaitSt) : Bool := w.ins.op == 0x51 || (w.ins.op == 0x53 && bitAt w.ins.desc.w3 1)

/-- A cancel leaves for the unit that holds a wait (R245, R248): the wire wait ends at once, a cancel
to a die unit of the node or to another node is on its way; an operation that is no wait has none.  `gone` says that the
context has faulted, halted or been reset, so that nobody is to be woken. -/
def State.sendCancel (s : State) (n x : Nat) (w : WaitSt) (gone : Bool) : State :=
  if !w.isWait then s else
  match w.die with
  | none => (s.freeWatch n s.nodeId n x w.tag).2
  | some d =>
    let c : CancelMsg := {
      node := s.nodeId, core := n, ctx := x, epoch := (s.ctx n x).epoch, tag := w.tag
      addr := fld w.ins.desc.w1 47 0, gone := gone }
    if w.node = s.nodeId then { s with sync := { s.sync with cancels := s.sync.cancels ++ [(d, c)] } }
    else
      let p := s.mkPacket w.node 0x04 0 w.tag (fld w.ins.desc.w1 47 0) ((w.ins.op % 16) * 2 ^ 60) w.ins.desc.w2
        (syncUnit w.ins.pc s.stepNo n x (s.ctx n x).epoch
          (b2n (bitAt w.ins.desc.w3 0) + 2 * b2n (bitAt w.ins.desc.w3 1) + 4))
      s.sendPacket (dieOf n) p

/-- A pending wait of a context is withdrawn (R248: fault, halt, reset). -/
def State.dropWait (s : State) (n x : Nat) : State :=
  let c := s.ctx n x
  match c.wait with
  | none => s
  | some w =>
    let s := s.setCtx n x { c with wait := none, heldWake := none, fly := c.fly.filter (fun i => i.cls != 4) }
    s.sendCancel n x w true

/-! ## Transactions (R271 to R281, R289) -/

/-- A transaction by its number. -/
def State.findTxn (s : State) (id : Nat) : Option Txn := s.txn.txns.find? (fun t => t.id == id)

/-- The state with a transaction changed. -/
def State.mapTxn (s : State) (id : Nat) (f : Txn → Txn) : State :=
  { s with txn := { s.txn with txns := s.txn.txns.map (fun t => if t.id = id then f t else t) } }

/-- TXN.OPEN, TXN.TAGGED and TXN.MACHINE from the transactions and the tagged lines. -/
def State.txnRegs (s : State) : State :=
  let s := (List.range 4).foldl (fun s d =>
    let open_ := (s.txn.txns.filter (fun t => t.die == d && t.scope != 3 && t.state != 6)).length
    let tagged := (s.txn.tagged.filter (fun l => l.owner.isSome && s.homeSlice (l.line * 64) / 8 == d)).length
    let s := s.setRf (pTXN d) 0x120 8 0 open_
    let s := s.setRf (pTXN d) 0x128 20 0 tagged
    s.setRf (pTXN d) 0x128 52 32 (max tagged (s.rf (pTXN d) 0x128 52 32))) s
  let machine := s.txn.txns.filter (fun t => t.scope == 3)
  match (machine.find? (fun t => t.state != 6)).or machine.head? with
  | none => s.setReg (pTXN 0) 0x130 0
  | some t =>
    let txc := (t.members.filter (·.txc)).length
    let txe := (t.members.filter (·.txe)).length
    let v : Nat := txe * 2 ^ 48 + txc * 2 ^ 32 + t.parts * 2 ^ 16 + (if t.state = 6 then 0 else t.state)
    s.setReg (pTXN 0) 0x130 (BitVec.ofNat 64 v)

/-- A local verdict bit is set by a cause on this node: 0 NONFINITE, 1 ABORT, 2 HOST_SKIP; after the node has
contributed its record, for the next step (R215, R216).  NF_OWN records a NONFINITE that arose here. -/
def State.verdictBit (s : State) (bit : Nat) : State :=
  if s.step.contributed then
    { s with step := { s.step with
        nextBits := s.step.nextBits ||| 2 ^ bit
        nextOwn := s.step.nextOwn || bit == 0 } }
  else
    let s := s.setRf pCFE 0x1D0 bit bit 1
    if bit = 0 then s.setRf pCFE 0x1D0 3 3 1 else s

/-- A received packet sets the local NONFINITE bit (R215). -/
def State.verdictRecv (s : State) : State :=
  if s.step.contributed then { s with step := { s.step with nextBits := s.step.nextBits ||| 1 } }
  else s.setRf pCFE 0x1D0 0 0 1

/-- An abort cause arises (R281): it dooms a transaction that is OPEN, and is recorded as the first. -/
def State.txnCause (s : State) (id cause code cls core ctx : Nat) : State :=
  match s.findTxn id with
  | none => s
  | some t =>
    if t.state ≠ 1 then s
    else
      let s := s.mapTxn id (fun t => { t with state := 2, cause := cause, code := code, cls := cls, byCore := core, byCtx := ctx })
      let s := if t.scope = 3 then s.verdictBit 1 else s
      s.txnRegs

/-- A member that counts as having reached TXC and TXE, because its context faults or is reset
(R280). -/
def State.txnLeave (s : State) (n x : Nat) : State :=
  let c := s.ctx n x
  match c.txn with
  | none => s
  | some id =>
    let s := s.setCtx n x { c with txn := none, txWait := 0, fly := c.fly.filter (fun i => i.cls != 4) }
    (s.mapTxn id (fun t => { t with members := t.members.map (fun m =>
      if m.core = n ∧ m.ctx = x then { m with txc := true, txcDone := true, txe := true, txeDone := true } else m) })).txnRegs

/-! ## Output tiles (R115 to R117) -/

/-- MXA.STATE.LIVE of an array. -/
def State.liveState (s : State) (n a : Nat) : Nat := s.rf (pMXA n a) 0x100 9 8

/-- MXA.STATE.SHADOW of an array. -/
def State.shadowState (s : State) (n a : Nat) : Nat := s.rf (pMXA n a) 0x100 17 16

/-- The live set of an array becomes EMPTY; the live fields of the registers return to 0 (R159,
R160). -/
def State.emptyLive (s : State) (n a : Nat) : State :=
  let s := s.setArr n a { s.arr n a with live := {}, injNar := false }
  let s := s.setRf (pMXA n a) 0x100 47 32 0
  let s := s.setRf (pMXA n a) 0x100 25 24 0
  let s := s.setRf (pMXA n a) 0x100 9 8 0
  let s := s.setRf (pMXA n a) 0x188 2 0 0
  s.setRf (pMXA n a) 0x190 13 0 0

/-- The shadow set of an array becomes FREE and empty. -/
def State.emptyShadow (s : State) (n a : Nat) : State :=
  (s.setArr n a { s.arr n a with shadow := {} }).setRf (pMXA n a) 0x100 17 16 0

/-- The open output tile of an array is aborted (R117); ABORTS counts one that was OPEN. -/
def State.abortTile (s : State) (n a : Nat) : State :=
  if s.liveState n a = 0 then s else (s.emptyLive n a).addReg (pMXA n a) 0x120 1

/-- The open tiles of the arrays that a context owns are aborted. -/
def State.abortTiles (s : State) (n x : Nat) (arrs : List Nat) : State :=
  arrs.foldl (fun s a => if s.arrOwner n a = x then s.abortTile n a else s) s

/-! ## Context faults (R131, R132) -/

/-- A fault as it is recorded. -/
structure FaultRec where
  unit : Nat
  cls : Nat
  code : Nat
  pc : Nat
  /-- FAULT_INFO: word and bit of a descriptor refusal. -/
  info : Nat := 0
  multi : Bool := false
  deriving DecidableEq, Repr

/-- Abort cause of a fault (R281). -/
def FaultRec.cause (f : FaultRec) : Nat :=
  if f.code = 0x40 ∧ (f.cls = 0x20 ∨ f.cls = 0x22 ∨ f.cls = 0x23) then 3
  else if f.code = 0x41 ∧ f.cls = 0x20 then 4
  else 2

/-- A context faults (R131): no further release, the record, the FAULT event; its wait is withdrawn,
its transaction is doomed and it counts as having left it, the job faults.  A context that is IDLE or
FAULTED already records nothing. -/
def State.faultCtx (s : State) (n x : Nat) (f : FaultRec) : State :=
  let st := s.ctxState n x
  if st = 0 ∨ st = 3 then s
  else
    let v : Nat := f.cls * 2 ^ 40 + f.unit * 2 ^ 32 + b2n f.multi * 2 ^ 17 + 2 ^ 16 + f.code
    let s := s.setReg (pCOR n) (corOff x 0x10) (BitVec.ofNat 64 v)
    let s := s.setReg (pCOR n) (corOff x 0x18) (BitVec.ofNat 64 f.pc)
    let s := s.setReg (pCOR n) (corOff x 0x20) (BitVec.ofNat 64 f.info)
    let s := s.setReg (pCOR n) (corOff x 0x28) 0
    let s := (s.setCtxState n x 3).raise (pCOR n) x
    let s := s.dropWait n x
    let s := (match (s.ctx n x).txn with
      | none => s
      | some id => (s.txnCause id f.cause f.code (if f.code < 0x40 then 0 else f.cls) n x).txnLeave n x)
    if s.jobUnder = 2 ∨ s.jobUnder = 3 then s.setJobUnder 6 else s

/-- FAULT_INFO of a refused descriptor (R138). -/
def Refuse.info (r : Refuse) : Nat := r.bit * 256 + r.word

/-- Both contexts of a core fault with one record (R130). -/
def State.faultBoth (s : State) (n : Nat) (f : FaultRec) : State := (s.faultCtx n 0 f).faultCtx n 1 f

/-! ## Context resets (R246, R247, R248, R427) -/

/-- Core-scope objects and die-scope objects of this node that a context owns at an epoch release their
waiters with ORPHAN; the die-scope ones become orphaned (R247).  In whole mode context 1 owns no core-scope object, so that
its reset orphans none on the core's page (R233, R257). -/
def State.orphanAll (s : State) (n x epoch : Nat) : State :=
  let mine (e : Nat × Obj) : Bool :=
    if e.1 / 16384 = n then s.coreOwner n (e.1 % 16384 / 8192) (e.1 % 8192) == x
    else decide (144 ≤ e.1 / 16384) && e.2.owned && !e.2.orphaned && e.2.ownerNode == s.nodeId &&
      e.2.ownerCore == n && e.2.ownerCtx == x && e.2.ownerEpoch == epoch
  let keys := (s.sync.objs.filter mine).map (·.1)
  let s := keys.foldl (fun s k =>
    let s := if 144 ≤ k / 16384 then
        { s with sync := { s.sync with objs := Tab.set s.sync.objs {} k { Tab.get s.sync.objs {} k with orphaned := true } } }
      else s
    s.releaseWaiters k 0x41) s
  let units := keys.map (fun k => k / 16384)
  let own := if s.leaves n || x == 0 then [n] else []
  (own ++ (rangeFrom 144 4).filter (fun u => units.contains u)).foldl (fun s u => s.raise (pSYN u) 1) s

/-- Context `x` of core `n` is reset (R246 to R248): its epoch advances, its objects are orphaned, its
wait is withdrawn, its transaction aborts with RESET, its decoded and released instructions are gone,
its arrays are empty, its lines are no longer resident, its registers return to their reset values. -/
def State.resetCtx (s : State) (n x : Nat) : State :=
  let s := s.dropWait n x
  let s := (match (s.ctx n x).txn with
    | none => s
    | some id => (s.txnCause id 0x0A 0 0 n x).txnLeave n x)
  let c := s.ctx n x
  let old := c.epoch
  let s := s.setCtx n x { epoch := (old + 1) % 65536, ownEpoch := c.ownEpoch, nseq := c.nseq }
  let k := s.core n
  let r := s.storeRegion n x
  let mineLine (l : Nat) : Bool := decide (r.1 ≤ l * 64 ∧ l * 64 < r.2)
  let s := s.setCore n { k with
    pins := k.pins.filter (fun p => p.ctx != x)
    resident := k.resident.filter (fun l => !mineLine l)
    qnt := (match k.qnt with
      | some j => if j.ctx = x then none else some j
      | none => none)
    vec := (match k.vec with
      | some j => if j.ctx = x then none else some j
      | none => none)
    dma := k.dma.filter (fun j => j.ctx != x) }
  let s := (List.range 4).foldl (fun s a =>
    if s.arrOwner n a = x then (s.emptyLive n a).emptyShadow n a else s) s
  let s := (List.range 6).foldl (fun s i => s.setReg (pCOR n) (corOff x (8 * i)) 0) s
  let isl := s.island (s.islandOf n)
  let s := s.setIsland (s.islandOf n) { isl with
    released := isl.released.filter (fun r => !(r.1 == n && r.2.1 == x))
    waiting := isl.waiting.filter (fun r => !(r.1 == n && r.2.1 == x)) }
  s.orphanAll n x old

end Sys2Proof.Machine
end

