-- ==== Sys2Proof/Machine/Manifest.lean ====
section
/-! DEFINITION. Signed objects in flash: their bytes, the manifest, its verification (R478 to R480). -/

namespace Sys2Proof.Machine

/-- Key of a flash byte. -/
def flashKey (kind slot off : Nat) : Nat := 2 ^ 28 * (2 * kind + slot) + off

/-- A byte of a slot or buffer. -/
def State.flashByte (s : State) (kind slot off : Nat) : Byte :=
  match Tab.find s.sec.flash (flashKey kind slot off) with
  | some b => b
  | none => Config.blankFlash (Tab.get s.sec.erased 0 (2 * kind + slot)) (flashKey kind slot off)

/-- Bytes of a slot or buffer. -/
def State.flashBytes (s : State) (kind slot off n : Nat) : List Byte :=
  (List.range n).map (fun i => s.flashByte kind slot (off + i))

/-- A little-endian number in a slot or buffer. -/
def State.flashNat (s : State) (kind slot off n : Nat) : Nat := leNat (s.flashBytes kind slot off n)

/-- The state with bytes written to a slot or buffer. -/
def State.flashWrite (s : State) (kind slot off : Nat) (bs : List Byte) : State :=
  { s with sec := { s.sec with flash :=
      (bs.foldl (fun (acc : Tab Byte × Nat) b => (Tab.put acc.1 (flashKey kind slot acc.2) b, acc.2 + 1)) (s.sec.flash, off)).1 } }

/-- The state with a slot or buffer erased. -/
def State.flashErase (s : State) (kind slot : Nat) : State :=
  let k := 2 * kind + slot
  { s with sec := { s.sec with
    flash := Tab.delRange s.sec.flash (2 ^ 28 * k) (2 ^ 28 * (k + 1))
    erased := Tab.set s.sec.erased 0 k (Tab.get s.sec.erased 0 k + 1) } }

/-- First byte of the image of a slot: the manifest takes 8 KiB (R478). -/
def imageOff : Nat := 0x2000

/-- The manifest in a slot or buffer. -/
def State.manifest (s : State) (kind slot : Nat) : Manifest :=
  { keyIndex := s.flashNat kind slot 0x03 1
    svn := s.flashNat kind slot 0x04 1
    version := s.flashNat kind slot 0x08 4
    revoke := s.flashNat kind slot 0x06 2
    digest := s.flashBytes kind slot 0x10 32 }

/-- IMAGE_LEN is one that the kind has (R479). -/
def imageLenOk (kind len : Nat) : Bool :=
  match kind with
  | 1 => decide (4096 ≤ len ∧ len ≤ 0x100000 ∧ len % 4096 = 0)
  | 2 => decide (4096 ≤ len ∧ len ≤ 0x80000 ∧ len % 4096 = 0)
  | 3 => len == 512
  | 4 => len == 0
  | 5 => len == 96
  | _ => false

/-- Bytes of a manifest that must be 0: offset and length. -/
def zeroFields (kind : Nat) : List (Nat × Nat) :=
  [(0x05, 1), (0x30, 16), (0x13F4, 12), (0x1D74, 652)] ++ (if kind = 4 then [] else [(0x06, 2)])

/-- Step 1 of R480. -/
def State.badForm (s : State) (kind slot : Nat) : Bool :=
  s.flashNat kind slot 0 2 != 3 || s.flashNat kind slot 2 1 != kind || !imageLenOk kind (s.flashNat kind slot 0x0C 4) ||
    decide (64 < s.flashNat kind slot 4 1 ∨ 15 < s.flashNat kind slot 3 1) ||
    (zeroFields kind).any (fun f => s.flashNat kind slot f.1 f.2 != 0)

/-- An ASCII label without terminator. -/
def ascii (l : List Nat) : List Byte := l.map (BitVec.ofNat 8)

/-- "HK3 KEY" -/
def keyContext : List Byte := ascii [0x48, 0x4B, 0x33, 0x20, 0x4B, 0x45, 0x59]

/-- "HK3 MANIFEST" -/
def manifestContext : List Byte := ascii [0x48, 0x4B, 0x33, 0x20, 0x4D, 0x41, 0x4E, 0x49, 0x46, 0x45, 0x53, 0x54]

/-- "HK3 ATTEST" -/
def attestContext : List Byte := ascii [0x48, 0x4B, 0x33, 0x20, 0x41, 0x54, 0x54, 0x45, 0x53, 0x54]

/-- "HK3 DEVICE" -/
def deviceLabel : List Byte := ascii [0x48, 0x4B, 0x33, 0x20, 0x44, 0x45, 0x56, 0x49, 0x43, 0x45]

/-- "HK3 ALIAS" -/
def aliasLabel : List Byte := ascii [0x48, 0x4B, 0x33, 0x20, 0x41, 0x4C, 0x49, 0x41, 0x53]

/-- Step 4 of R480: the key signature and then the manifest signature verify. -/
def State.sigsOk (s : State) (kind slot : Nat) : Bool :=
  let root := s.flashBytes kind slot 0x40 1312
  let pub := s.flashBytes kind slot 0x560 1312
  Config.mldsaVerify root keyContext (s.flashBytes kind slot 3 1 ++ pub) (s.flashBytes kind slot 0xA80 2420) &&
    Config.mldsaVerify pub manifestContext (s.flashBytes kind slot 0 0x40) (s.flashBytes kind slot 0x1400 2420)

/-- SHA3-256 of the DeviceID public key: SEC.DEVICE_ID. -/
def State.deviceHash (s : State) : List Byte := if s.sec.deviceId = [] then List.replicate 32 0 else sha3 s.sec.deviceId

/-- The outcome of R480 over a slot or buffer: the first failure decides. -/
def State.verifyCode (s : State) (kind slot : Nat) : Nat :=
  let m := s.manifest kind slot
  if s.badForm kind slot then cRANGE
  else if sha3 (s.flashBytes kind slot 0x40 1312) != Config.rootHash then 0x40
  else if s.sec.revoke.testBit m.keyIndex then 0x41
  else if !s.sigsOk kind slot then 0x42
  else if m.svn < s.sec.rollback then 0x43
  else if sha3 (s.flashBytes kind slot imageOff (s.flashNat kind slot 0x0C 4)) != m.digest then 0x44
  else if kind == 5 && s.flashBytes kind slot imageOff 32 != s.deviceHash then 0x45
  else cOK

/-- The slots of kinds 1 to 3. -/
def State.slotsOf (s : State) (kind : Nat) : Slots :=
  if kind = 1 then s.sec.msc else if kind = 2 then s.sec.seqr else s.sec.cfg

/-- The state with the slots of a kind set. -/
def State.setSlotsOf (s : State) (kind : Nat) (v : Slots) : State :=
  { s with sec :=
    if kind = 1 then { s.sec with msc := v } else if kind = 2 then { s.sec with seqr := v } else { s.sec with cfg := v } }

/-- A slot is VALID. -/
def Slots.valid (k : Slots) (slot : Nat) : Bool := if slot = 0 then k.validA else k.validB

/-- The slots with VALID of one set. -/
def Slots.setValid (k : Slots) (slot : Nat) (v : Bool) : Slots := if slot = 0 then { k with validA := v } else { k with validB := v }

/-- The image in a slot as it comes to run. -/
def State.runOf (s : State) (kind slot : Nat) : Running := { man := s.manifest kind slot, slot := slot }

end Sys2Proof.Machine
end

