-- ==== Sys2Proof/Machine/Steps.lean ====
section
/-! DEFINITION. How transactions and steps are decided and end: versioned regions, commit and abort,
status words, the verdict record, the step log, the maintenance point, the step barrier, completions of
host commands (R216 to R224, R266 to R280, R317, R361, R380, R394). -/

namespace Sys2Proof.Machine

/-! ## Writes to HBM and LLC -/

/-- A write inside one HBM line: discarded while its pseudo-channel is fenced; one that covers the line
makes it good after a fence (R316). -/
def State.writeLine (s : State) (a : Nat) (bs : List Byte) : State :=
  if s.pchFenced a then s
  else
    let i := (s.hbmMap a).1
    let k := s.stack i
    let s := if bs.length == 64 && s.lineStale (a / 64) then s.setStack i { k with fresh := insSet k.fresh (a / 64) } else s
    { s with mem := s.mem.write a bs }

/-- No pseudo-channel is fenced or has been, and none was retired by a failed hold. -/
def State.neverFenced (s : State) : Bool :=
  s.hbm.stk.all (fun e => e.2.fenced.isEmpty && e.2.stale.isEmpty && e.2.lost.isEmpty)

/-- A plain write to HBM, LLC scratch or a core store as memory takes it. -/
def State.writeLocal (s : State) (a : Nat) (bs : List Byte) : State :=
  if s.neverFenced || decide (s.hbmEnd ≤ a) then { s with mem := s.mem.write a bs }
  else
    (memLines a bs.length).foldl (fun (s : State) (l : Nat) =>
      let lo := max a (l * 64)
      let hi := min (a + bs.length) (l * 64 + 64)
      s.writeLine lo ((bs.drop (lo - a)).take (hi - lo))) s

/-- A little-endian number in memory. -/
def State.memNat (s : State) (a n : Nat) : Nat := leNat (s.bytes a n)

/-! ## Versioned regions (R266 to R270) -/

/-- An entry of the region table. -/
structure Entry where
  copy0 : Nat
  copy1 : Nat
  copy2 : Nat
  len : Nat
  ctrl : Word
  version : Nat
  pinVersion : Nat
  /-- The word at 0x38. -/
  last : Nat
  deriving DecidableEq, Repr

/-- Address of a region's entry. -/
def State.entryAddr (s : State) (r : Nat) : Nat := s.rf (pTXN 0) 0x110 47 12 * 4096 + 64 * r

/-- REGION_COUNT. -/
def State.regionCount (s : State) : Nat := s.rf (pTXN 0) 0x118 10 0

/-- The entry of a region. -/
def State.entry (s : State) (r : Nat) : Entry :=
  let a := s.entryAddr r
  { copy0 := s.memNat a 8, copy1 := s.memNat (a + 8) 8, copy2 := s.memNat (a + 16) 8, len := s.memNat (a + 24) 8,
    ctrl := BitVec.ofNat 64 (s.memNat (a + 32) 8), version := s.memNat (a + 40) 8, pinVersion := s.memNat (a + 48) 8,
    last := s.memNat (a + 56) 8 }

/-- CTRL.COPIES. -/
def Entry.copies (e : Entry) : Nat := fld e.ctrl 1 0
/-- CTRL.ACTIVE. -/
def Entry.active (e : Entry) : Nat := fld e.ctrl 9 8
/-- CTRL.PIN. -/
def Entry.pin (e : Entry) : Nat := fld e.ctrl 17 16
/-- CTRL.PINNED. -/
def Entry.pinned (e : Entry) : Bool := bitAt e.ctrl 18
/-- CTRL.OPENED. -/
def Entry.opened (e : Entry) : Bool := bitAt e.ctrl 19

/-- Address of a copy. -/
def Entry.copy (e : Entry) (i : Nat) : Nat := if i = 0 then e.copy0 else if i = 1 then e.copy1 else e.copy2

/-- The write copy (R267). -/
def Entry.writeCopy (e : Entry) : Nat :=
  if e.copies = 2 then 1 - e.active
  else ((List.range 3).find? (fun i => i != e.active && !(e.pinned && i == e.pin))).getD 0

/-- The entry keeps R266. -/
def State.entryOk (s : State) (e : Entry) : Bool :=
  (e.copies == 2 || e.copies == 3) && e.active < e.copies && e.len % 4096 == 0 && e.len != 0 &&
    (e.ctrl &&& ~~~(BitVec.ofNat 64 0xF0303) == 0) && (e.copies == 3 || e.copy2 == 0) &&
    e.pin < e.copies && (e.pinned || e.pinVersion == 0) && e.last == 0 &&
    (List.range e.copies).all (fun i => e.copy i % 4096 == 0 && decide (e.copy i + e.len ≤ s.hbmEnd))

/-- The 64 bytes of an entry. -/
def Entry.bytes (e : Entry) : List Byte :=
  natLe 8 e.copy0 ++ natLe 8 e.copy1 ++ natLe 8 e.copy2 ++ natLe 8 e.len ++ natLe 8 e.ctrl.toNat ++ natLe 8 e.version ++
    natLe 8 e.pinVersion ++ natLe 8 e.last

/-- An entry is written as one 64-byte line (R266). -/
def State.setEntry (s : State) (r : Nat) (e : Entry) : State := s.writeLocal (s.entryAddr r) e.bytes

/-- The flip of a region (R269). -/
def State.flip (s : State) (r : Nat) : State :=
  let e := s.entry r
  let s := { s with txn := { s.txn with stepOf := Tab.put s.txn.stepOf r (s.stepNo + 1) } }
  s.setEntry r { e with ctrl := setBit (setFld e.ctrl 9 8 e.writeCopy) 19 false, version := (e.version + 1) % 2 ^ 64 }

/-- An abort closes a region; its write copy's contents are undefined (R269). -/
def State.closeRegion (s : State) (r : Nat) : State :=
  let e := s.entry r
  let a := e.copy e.writeCopy
  (s.setEntry r { e with ctrl := setBit e.ctrl 19 false }).undefine a (a + e.len)

/-- A pin takes the active copy (R270). -/
def State.pinRegion (s : State) (r : Nat) : State :=
  let e := s.entry r
  let s := { s with txn := { s.txn with pinStep :=
      (match Tab.find s.txn.stepOf r with
      | some n => Tab.put s.txn.pinStep r n
      | none => Tab.del s.txn.pinStep r) } }
  s.setEntry r { e with ctrl := setBit (setFld e.ctrl 17 16 e.active) 18 true, pinVersion := e.version }

/-- The release of a pin (R270). -/
def State.unpinRegion (s : State) (r : Nat) : State :=
  let e := s.entry r
  s.setEntry r { e with ctrl := setBit (setFld e.ctrl 17 16 0) 18 false, pinVersion := 0 }

/-! ## Decisions of transactions (R273 to R281) -/

/-- The status word of R275. -/
def statusWord (outcome cause code cls : Nat) : Nat := cls * 2 ^ 32 + code * 2 ^ 16 + cause * 2 ^ 8 + outcome

/-- A TXC or TXE writes its status word at the STATUS_ADDR of the part, the line becomes resident, and it
completes (R275); while the line is pinned its write waits (R120). -/
def State.endTxIns (s : State) (n x a word : Nat) : State :=
  let c := s.ctx n x
  if s.pinned n (a / 64) then s.setCtx n x { c with txDue := some (a, word) }
  else
    let s := s.setCtx n x { c with txWait := 0, txDue := none, fly := c.fly.filter (fun i => i.cls != 4) }
    (s.writeStore n a (natLe 8 word)).setResident n [a / 64] true

/-- The status words that waited for a pin are written where it has ended (R120, R275). -/
def State.payStatus (s : State) : State :=
  let due := s.cores.flatMap (fun e =>
    (match e.2.c0.txDue with
    | none => []
    | some w => [(e.1, 0, w)]) ++
    (match e.2.c1.txDue with
    | none => []
    | some w => [(e.1, 1, w)]))
  due.foldl (fun (s : State) (e : Nat × Nat × Nat × Nat) => s.endTxIns e.1 e.2.1 e.2.2.1 e.2.2.2) s

/-- The TXC of every member that waits completes with an outcome. -/
def State.completeTxcs (s : State) (t : Txn) (outcome : Nat) : State :=
  let w := if outcome = 1 ∨ outcome = 3 then statusWord outcome 0 0 0 else statusWord outcome t.cause t.code t.cls
  let waits := t.members.filter (fun m => m.txc && !m.txcDone)
  let s := waits.foldl (fun s m => s.endTxIns m.core m.ctx m.status w) s
  s.mapTxn t.id (fun t => { t with members := t.members.map (fun m => { m with txcDone := m.txcDone || m.txc }) })

/-- The contexts of a core or package transaction have none open any more. -/
def State.releaseMembers (s : State) (t : Txn) : State :=
  t.members.foldl (fun s m =>
    let c := s.ctx m.core m.ctx
    if c.txn = some t.id then s.setCtx m.core m.ctx { c with txn := none } else s) s

/-- The transaction leaves the unit. -/
def State.dropTxn (s : State) (id : Nat) : State :=
  { s with txn := { s.txn with txns := s.txn.txns.filter (fun t => t.id != id) } }.txnRegs

/-- An abort is complete: lines and regions are discarded, TXN.LAST_ABORT records it, ABORT is raised,
every waiting TXC completes with ABORTED, or with IN_DOUBT_RESOLVED_ABORT (R273, R275, R278, R281). -/
def State.abortTxn (s : State) (id : Nat) : State :=
  match s.findTxn id with
  | none => s
  | some t =>
    let s := { s with txn := { s.txn with tagged := s.txn.tagged.filter (fun l => l.owner != some id) } }
    let s := t.regions.foldl (fun s r => s.closeRegion r) s
    let v : Nat := t.code * 2 ^ 40 + t.cause * 2 ^ 32 + t.scope * 2 ^ 30 + (if t.scope = 2 then t.txid else 0) * 2 ^ 22
      + t.byCtx * 2 ^ 21 + t.byCore * 2 ^ 13 + 1
    let s := s.setReg (pTXN t.die) 0x140 (BitVec.ofNat 64 v)
    let s := (s.addReg (pTXN t.die) 0x158 1).raise (pTXN t.die) 0
    let s := if t.cause == 1 || t.cause == 5 || t.cause == 9 || s.boot.retryMs != 0 then s
      else { s with boot := { s.boot with retryMs := 1 } }
    let s := s.mapTxn id (fun t => { t with state := 6, regions := [] })
    let s := s.completeTxcs t (if t.resolved then 4 else 2)
    if t.scope = 3 then s.txnRegs else (s.releaseMembers t).dropTxn id

/-- The commit window of a transaction closes (R273, R276): its tagged lines are committed data; core
and package transactions flip their regions and end, a machine transaction enters APPLY. -/
def State.closeWindow (s : State) (id : Nat) : State :=
  match s.findTxn id with
  | none => s
  | some t =>
    let mine := s.txn.tagged.filter (fun l => l.owner == some id)
    let s := mine.foldl (fun (s : State) (l : TLine) =>
      let s := s.writeLocal (l.line * 64) l.data
      if l.poison then { s with mem := s.mem.setPoison l.line true } else s) s
    let s := { s with txn := { s.txn with tagged := s.txn.tagged.map (fun (l : TLine) =>
      if l.owner = some id then { l with owner := none } else l) } }
    let s := s.addReg (pTXN t.die) 0x150 1
    let s := { s with boot := { s.boot with
      downMs := s.boot.downMs + (if 2 ≤ s.boot.retryMs then s.boot.retryMs - 1 else 0), retryMs := 0 } }
    if t.scope = 3 then
      let s := s.mapTxn id (fun t => { t with state := 5 })
      (s.completeTxcs t (if t.resolved then 3 else 1)).txnRegs
    else
      let s := t.regions.foldl (fun s r => s.flip r) s
      ((s.completeTxcs t 1).releaseMembers t).dropTxn id

/-- Every part of the transaction has reached TXC (R273, R280). -/
def Txn.allTxc (t : Txn) : Bool := t.members.length == t.parts && t.members.all (·.txc)

/-- Every part of the transaction has reached TXE. -/
def Txn.allTxe (t : Txn) : Bool := t.members.length == t.parts && t.members.all (·.txe)

/-- A core or package transaction all of whose parts have reached TXC is decided: OPEN ones open their
commit window, DOOMED ones abort (R273). -/
def State.decideLocal (s : State) (t : Txn) : State :=
  if t.scope = 3 ∨ !t.allTxc then s
  else if t.state = 1 then (s.mapTxn t.id (fun t => { t with state := 3 })).txnRegs
  else if t.state = 2 then s.abortTxn t.id
  else s

/-- The machine transaction of the node that has not ended. -/
def State.machineTxn (s : State) : Option Txn := s.txn.txns.find? (fun t => t.scope == 3 && t.state != 6)

/-- The parts of a machine transaction in APPLY have all reached TXE: every region flips, the TXEs
complete with APPLIED, the transaction ends (R277, R280). -/
def State.applyMachine (s : State) (t : Txn) : State :=
  if t.scope = 3 ∧ t.state = 5 ∧ t.allTxe then
    let s := t.regions.foldl (fun s r => s.flip r) s
    let waits := t.members.filter (fun m => m.txe && !m.txeDone)
    let s := waits.foldl (fun s m => s.endTxIns m.core m.ctx m.status (statusWord 5 0 0 0)) s
    (s.releaseMembers t).dropTxn t.id
  else if t.scope = 3 ∧ t.state = 6 ∧ t.allTxe then (s.releaseMembers t).dropTxn t.id
  else s

/-! ## The verdict (R215 to R222) -/

/-- The node's verdict record. -/
def State.ownRec (s : State) : VRec :=
  { flags := s.rf pCFE 0x1D0 2 0, smin := s.stepNo, smax := s.stepNo }

/-- combine of R217. -/
def VRec.combine (a b : VRec) : VRec :=
  { flags := a.flags ||| b.flags, smin := min a.smin b.smin, smax := max a.smax b.smax }

/-- The record is positive (R218). -/
def VRec.positive (r : VRec) : Bool := r.flags == 0 && r.smin == r.smax

/-- Axes of the slice with extent above 1, in the order X, Y, Z. -/
def State.verdictAxes (s : State) : List Nat := (List.range 3).filter (fun ax => decide (1 < s.sExt ax))

/-- GEN.PROFILE.BASE. -/
def State.genBase (s : State) : Nat := s.rf pGEN 0x100 1 0

/-- The node's verdict record is final: every part of its machine transaction has reached TXC, or a
STEP_END is served (R222, R276). -/
def State.verdictFinal (s : State) : Bool :=
  s.step.stepEnd ||
  match s.machineTxn with
  | none => false
  | some t => t.allTxc && (t.state == 1 || t.state == 2)

/-- The record that the node sends on the next axis: its own before the first axis, then the one
reduced so far (R357). -/
def State.carriedRec (s : State) : VRec := s.step.acc.getD s.ownRec

/-- The node contributes its record: sources raised later belong to the next step (R216). -/
def State.contribute (s : State) : State :=
  if s.step.contributed then s else { s with step := { s.step with contributed := true, acc := some s.ownRec } }

/-- Header-only collectives of the CFE start on the axes that no collective carries, on die 0, once the
record is final (R218, R222, R276). -/
def State.startHeaderOnly (s : State) : State :=
  if !s.verdictFinal ∨ s.genBase = 2 ∨ s.evalActive ∨ s.step.broken then s
  else
    let todo := s.verdictAxes.filter (fun ax => !s.step.carried.contains ax)
    let job (ax : Nat) : CollJob :=
      { axis := ax, id := 0, op := 0, mode := 0, root := 0, last := true, grad := false, src := 0, dst := 0, n := 0, by_ := none }
    { s with
      coll := { s.coll with queue := s.coll.queue ++ todo.map (fun ax => (0, job ax)) }
      step := { s.step with carried := s.step.carried ++ todo } }

/-- The verdict reduction is complete on the node: the record is final and every axis has been reduced; also late, while
the node is in doubt (R286); not while an evaluation runs (R230). -/
def State.reductionDone (s : State) : Bool :=
  s.verdictFinal && s.genBase != 2 && !s.evalActive && s.step.ending.isNone &&
    (!s.step.broken || (match s.machineTxn with
      | none => false
      | some t => t.state == 4)) &&
    s.verdictAxes.all (fun ax => s.step.axesDone.contains ax)

/-! ## The end of a step (R219, R223, R224) -/

/-- Configuration bits and words that a log entry reports. -/
def State.logEntry (s : State) (e : Ending) : List Byte :=
  let n := s.stepNo
  let outcome : Nat := 1 + 2 * b2n e.committed + 4 * (e.flags % 8) + 32 * b2n (e.smin != e.smax)
    + 64 * s.rf pCFE 0x1D0 3 3 + 128 * b2n e.host + 256 * s.rf pCFE 0x180 5 4 + 1024 * s.rf pCFE 0x180 16 16
  let prog := natLe 8 (s.reg pCFE 0x108).toNat ++ natLe 8 (s.reg pCFE 0x110).toNat ++
    natLe 8 (s.reg pCFE 0x118).toNat ++ natLe 8 (s.reg pCFE 0x120).toNat
  let digest := sha3 (natLe 8 (s.reg pCFE 0x1F0).toNat ++ natLe 8 (s.reg pCFE 0x1F8).toNat ++ natLe 8 n ++ prog ++
    s.hcq.cfgDigest)
  natLe 8 n ++ natLe 8 outcome ++ digest ++ natLe 8 e.smin ++ natLe 8 e.smax

/-- STEP_LOG.SIZE_LOG2. -/
def State.logSize (s : State) : Nat := s.rf pCFE 0x1C8 4 0

/-- MEM.RETRAIN of a stack follows its retrains: PENDING, ACTIVE, FENCED, PCH (R321). -/
def State.retrainRegs (s : State) (i : Nat) : State :=
  let k := s.stack i
  let shown := match k.hold with
    | some c => c
    | none => k.pend.headD 0
  let s := s.setRf (pMEM i) 0x140 2 0 (b2n (k.pend != [] || k.hold.isSome) + 2 * b2n k.hold.isSome + 4 * b2n (k.fenced != []))
  s.setRf (pMEM i) 0x140 28 24 shown

/-- The next hold of a stack starts when none is in progress: the lowest pseudo-channel that may go (R316). -/
def State.startHold (s : State) (i : Nat) : State :=
  let k := s.stack i
  match k.hold, k.pend.find? (fun c => k.go.contains c) with
  | none, some c =>
    let s := s.setStack i { k with
      hold := some c
      pend := delSet k.pend c
      go := delSet k.go c }
    (s.raise (pMEM i) 2).retrainRegs i
  | _, _ => s

/-- In free mode, or with no job RUNNING, pending retrains proceed at once (R316 step 2). -/
def State.freeRetrains (s : State) : State :=
  if s.fixedRun && s.job == 2 then s
  else
    s.hbm.stk.foldl (fun (s : State) (e : Nat × Stack) =>
      if e.2.pend.all (fun c => e.2.go.contains c) then s
      else (s.setStack e.1 { e.2 with go := e.2.pend.foldl insSet e.2.go }).startHold e.1) s

/-- The copy of a retirement goes on in ascending granules; how far it has come is open, so that the next granules copied
are a free number of them (R319). -/
def State.copyOn (s : State) : State :=
  s.hbm.stk.foldl (fun (s : State) (e : Nat × Stack) =>
    if e.2.retiring.isNone then s
    else
      let d := s.draw
      let k := d.2.stack e.1
      d.2.setStack e.1 { k with copied := k.copied + Config.freeNat d.1 % (d.2.granules - k.copied) }) s

/-- Every pending retrain of the package starts, in ascending package number, and fenced pseudo-channels may
try again (R316, R317). -/
def State.maintenancePoint (s : State) : State :=
  (List.range 20).foldl (fun (s : State) (i : Nat) =>
    let k := s.stack i
    if k.pend = [] ∧ k.fenced = [] then s
    else (s.setStack i { k with go := (k.pend ++ k.fenced).foldl insSet k.go }).startHold i) s

/-- Ports of the BAR symbol's next hops from this node (R361). -/
def State.barPorts (s : State) : List Nat :=
  let pos (ax : Nat) := s.slicePos ax (coordOf s.nodeId ax)
  let more (ax : Nat) := decide (pos ax + 1 < s.sExt ax)
  let dirs := (if more 0 && pos 1 == 0 && pos 2 == 0 then [0] else []) ++
    (if more 1 && pos 2 == 0 then [2] else []) ++ (if more 2 then [4] else [])
  dirs.filterMap (fun d => (s.dirPorts d).head?)

/-- This node is the slice origin. -/
def State.isOrigin (s : State) : Bool := (List.range 3).all (fun ax => s.slicePos ax (coordOf s.nodeId ax) == 0)

/-- The BAR symbol leaves for its next hops (R361). -/
def State.sendBar (s : State) : State := s.barPorts.foldl (fun s p => s.emit (.bar p)) s

/-- COL[0].CFG.BAR_STEP. -/
def State.barStep (s : State) : Bool := bitAt (s.reg (pCOL 0) 0x100) 16

/-- A release of the node is due; the window for the symbol ends (R361, R362). -/
def State.barCame (s : State) (start : Bool) : State :=
  { s with coll := { s.coll with
    barDue := s.coll.barDue ++ [start]
    barWait := false
    barEarly := false } }

/-- The barrier of a job start: the origin sends the symbol and its release is due; another node takes a symbol that came
before, or waits for one (R361, R362). -/
def State.startBarrier (s : State) : State :=
  let s := { s with coll := { s.coll with barLate := false } }
  if s.isOrigin then s.sendBar.barCame true
  else if s.coll.barEarly then s.barCame true
  else { s with coll := { s.coll with barWait := true } }

/-- The barrier of a step start, which the origin begins (R361). -/
def State.stepBarrier (s : State) : State :=
  if s.jobUnder = 2 ∧ s.barStep ∧ s.isOrigin then s.sendBar.barCame false else s

/-- After a release a node other than the origin waits for the symbol of the next step (R362). -/
def State.armBarrier (s : State) : State :=
  { s with coll := { s.coll with barWait := s.barStep && !s.isOrigin && !s.coll.barLate } }

/-! ## Completion of host commands (R394, R395) -/

/-- A completion record is queued; CQ_STALL when its ring cannot take it (R396). -/
def State.complete (s : State) (q hseq status cls opcode result : Nat) (aside : Option Nat) : State :=
  let s := s.queueCompletion q hseq status cls opcode result aside
  s.raiseIf (s.live && s.hcq.held.any (fun r => r.queue == some q)) pCFE 2

/-- A command of a queue completes: SEQ_COMPLETED and the history take it, and its record is queued. -/
def State.completeCmd (s : State) (q status cls result : Nat) : State :=
  let k := s.queue q
  match k.cur with
  | none => s
  | some c =>
    let s := s.setQueue q { k with cur := none, hist := ((c.hseq, status, cls) :: k.hist).take 64 }
    let s := s.setReg pCFE (qOff q 0x38) (BitVec.ofNat 64 c.hseq)
    s.complete q c.hseq status cls (fld c.desc.w0 7 0) result c.dseq

/-- Queues whose command in execution has an opcode. -/
def State.queuesWith (s : State) (op : Nat) : List Nat :=
  (List.range 16).filter (fun q =>
    match (s.queue q).cur with
    | none => false
    | some c => c.begun && fld c.desc.w0 7 0 == op)

/-- Queues whose STEP_COMMIT waits, in the order of acceptance (R382). -/
def State.commitQueues (s : State) : List Nat := s.hcq.commits.filter (fun q => (s.queuesWith 0x09).contains q)

/-- The STEP_COMMIT that ended the step completes; those accepted after it for the same step are refused with CONFLICT
(R380, R382). -/
def State.endCommits (s : State) : State :=
  let qs := s.commitQueues
  let s := { s with hcq := { s.hcq with commits := [] } }
  let s := qs.head?.toList.foldl (fun (s : State) (q : Nat) => s.completeCmd q cOK 0 0) s
  (qs.drop 1).foldl (fun (s : State) (q : Nat) => s.completeCmd q cCONFLICT 0 0) s

/-- Step 4 of R219: CFE.STEP advances, the verdict moves to LAST, sources raised since the contribution
become the new step's; STEP_COMMIT completes, the maintenance point occurs, SHT.TRIG of kind 2 may
match, and the barrier of the next step begins. -/
def State.advanceStep (s : State) (e : Ending) : State :=
  let v := s.reg pCFE 0x1D0
  let last : Nat := 1 + 2 * b2n e.committed + 4 * (e.flags % 8) + 32 * b2n (e.smin != e.smax) + 64 * fld v 3 3
  let local_ : Nat := s.step.nextBits % 8 + 8 * b2n s.step.nextOwn
  let s := s.setReg pCFE 0x1D0 (BitVec.ofNat 64 (last * 2 ^ 40 + local_))
  let s := { s with step := { ready := s.step.ready } }
  let s := s.addReg pCFE 0x1C0 1
  let s := if e.host then s.endCommits else s
  let s := s.maintenancePoint
  let s := if s.trigArmed 2 && s.reg pSHT 0x120 == s.reg pCFE 0x1C0 then s.trigFire else s
  s.stepBarrier

/-- Step 3 of R219 once no part of a machine transaction is left: the log entry is written, and a
sequencer image that was activated takes over (R490); with the log disabled the step advances at
once. -/
def State.logStep (s : State) : State :=
  match s.step.ending with
  | none => s
  | some e =>
    if e.logged ∨ s.evalActive ∨ s.txn.txns.any (fun t => t.scope == 3 && (t.state == 3 || t.state == 5 || t.state == 6)) then s
    else
      let s := if s.sec.seqSwitch then
          { s with sec := { s.sec with
            seqRun := s.runOf 2 s.sec.seqr.active
            seqSwitch := false } } else s
      if s.logSize = 0 then s.advanceStep e
      else
        let a := s.rf pCFE 0x1C8 47 12 * 4096 + 64 * (s.stepNo % 2 ^ s.logSize)
        let s := s.writeLocal a (s.logEntry e)
        { s with step := { s.step with ending := some { e with logged := true } } }

/-- Steps 1 and 2 of R219: the step is decided by a record; a machine transaction commits or aborts, and one that an
abort cause has doomed aborts whatever the record says (R271, R276, R278, R380). -/
def State.decideStep (s : State) (r : VRec) (positive host resolved : Bool) : State :=
  let e : Ending := { committed := positive, flags := r.flags, smin := r.smin, smax := r.smax, host := host, logged := false }
  let s := { s with step := { s.step with ending := some e, stepEnd := false } }
  match s.machineTxn with
  | none => s
  | some t =>
    let s := s.mapTxn t.id (fun t => { t with resolved := resolved })
    if positive ∧ t.cause = 0 then (s.mapTxn t.id (fun t => { t with state := 3 })).txnRegs
    else
      let s := s.mapTxn t.id (fun t => if t.cause = 0 then { t with cause := 9 } else t)
      s.abortTxn t.id

/-- A verdict reduction that has not completed: a machine transaction all of whose parts are ready is in doubt, and
a step ended by STEP_END is skipped with ABORT (R220, R222, R278). -/
def State.undecided (s : State) : State :=
  if !s.step.broken ∨ s.step.ending.isSome then s
  else
    match s.machineTxn with
    | none =>
      if s.step.stepEnd then
        s.decideStep { flags := s.ownRec.flags ||| 2, smin := s.stepNo, smax := s.stepNo } false false false
      else s
    | some t =>
      if t.allTxc && (t.state == 1 || t.state == 2) then
        ((s.mapTxn t.id (fun t => { t with state := 4 })).txnRegs).raise (pTXN t.die) 3
      else s

/-- The node is ready for STEP_COMMIT (R380): every part has reached TXC, or there is no machine
transaction. -/
def State.stepReady (s : State) : Bool :=
  match s.machineTxn with
  | none => true
  | some t => t.allTxc

/-- In a job that includes an HK1, a node that becomes ready raises READY (R381). -/
def State.noteReady (s : State) : State :=
  let r := s.genBase == 2 && s.jobUnder == 2 && s.stepReady
  let up := r && !s.step.ready
  let s := { s with step := { s.step with ready := r } }
  s.raiseIf up pGEN 0

/-- The STEP_COMMIT that was accepted first is carried out once the node is ready (R380, R382). -/
def State.tryStepCommit (s : State) : State :=
  if s.step.ending.isSome ∨ s.evalActive ∨ !s.stepReady then s
  else
    match s.commitQueues.head? with
    | none => s
    | some q =>
      match (s.queue q).cur with
      | none => s
      | some c =>
        let doomed := match s.machineTxn with
          | none => false
          | some t => t.state == 2
        let flags := fld c.desc.w3 2 0
        let f := if doomed then flags ||| 2 else flags
        s.decideStep { flags := f, smin := s.stepNo, smax := s.stepNo } (flags == 0 && !doomed) true false

end Sys2Proof.Machine
end

