-- ==== Sys2Proof/Machine/Release.lean ====
section
/-! DEFINITION. Decode into the class queues, and the release of sync and transaction instructions
(R118, R232 to R255, R268 to R288, R440). -/

namespace Sys2Proof.Machine

/-! ## The queues of a context (R118, R240) -/

/-- An earlier sync instruction that has not completed names the class of `i` in HOLD (R240). -/
def Ctx.held (c : Ctx) (i : Ins) : Bool :=
  (c.queue ++ c.fly).any (fun j => j.cls == 4 && decide (j.seq < i.seq) && bitAt j.desc.w0 (40 + i.cls))

/-- An earlier instruction of a class that FENCE of `i` names has not completed (R240). -/
def Ctx.fenced (c : Ctx) (i : Ins) : Bool :=
  (c.queue ++ c.fly).any (fun j => decide (j.seq < i.seq) && bitAt i.desc.w0 (32 + j.cls))

/-- The oldest decoded instruction of a class. -/
def Ctx.head (c : Ctx) (cls : Nat) : Option Ins := c.queue.find? (fun j => j.cls == cls)

/-- Decoded instructions of a class that have not left their queue. -/
def Ctx.count (c : Ctx) (cls : Nat) : Nat := (c.queue.filter (fun j => j.cls == cls)).length

/-- A partial write of the context is still in a WCB (R302). -/
def State.wcbHolds (s : State) (n x : Nat) : Bool :=
  s.hbm.stk.any (fun e => e.2.wcb.any (fun k => k.ctxs.contains (2 * n + x)))

/-- A PREEMPT waits for what is in flight (R283). -/
def State.preempting (s : State) : Bool := s.queuesWith 0x07 != []

/-- The issue unit decodes and releases instructions of the context: it is RUNNING, its cluster is in service, the
package is not frozen and no pre-emption waits (R131, R413, R466, R283). -/
def State.runs (s : State) (n x : Nat) : Bool := s.ctxState n x == 1 && decide (2 ≤ s.stage) && s.live && !s.preempting

/-- The queue of a class has room (R118). -/
def State.canDecode (s : State) (n x cls : Nat) : Bool := s.runs n x && decide ((s.ctx n x).count cls < 16)

/-- An instruction leaves its queue and is in flight. -/
def State.takeIns (s : State) (n x : Nat) (i : Ins) : State :=
  let c := s.ctx n x
  s.setCtx n x { c with queue := c.queue.filter (fun j => j.seq != i.seq), fly := c.fly ++ [i] }

/-- An instruction in flight has completed. -/
def State.finishIns (s : State) (n x : Nat) (i : Ins) : State :=
  let c := s.ctx n x
  s.setCtx n x { c with fly := c.fly.filter (fun j => j.seq != i.seq) }

/-- A match of SHT.TRIG of kind 1: the context decodes the instruction at TRIG_VAL (R474). -/
def State.trigDecode (s : State) (n x pc : Nat) : State :=
  if s.trigArmed 1 && s.rf pSHT 0x120 47 0 == pc && s.rf pSHT 0x118 15 8 == n && s.rf pSHT 0x118 16 16 == x then s.trigFire
  else s

/-- The next instruction of a context as it is decoded. -/
def State.nextIns (s : State) (n x cls : Nat) (d : Desc) (lines : List Nat) : Ins :=
  let c := s.ctx n x
  { seq := c.nseq, pc := s.ctxPc n x, cls := cls, op := fld d.w0 7 0, desc := d, epoch := c.epoch, txn := c.txn, lines := lines
    stamp := (s.core n).nstamp }

/-- An instruction is decoded into its class queue: PC moves on, the lines it will write are no longer
resident (R118, R120). -/
def State.decodeIns (s : State) (n x : Nat) (i : Ins) (npc : Nat) : State :=
  let c := s.ctx n x
  let s := s.setCtx n x { c with nseq := c.nseq + 1, queue := c.queue ++ [i] }
  let s := s.setCore n { s.core n with nstamp := (s.core n).nstamp + 1 }
  let s := s.setRf (pCOR n) (corOff x 0x08) 47 0 npc
  (if i.lines = [] then s else s.setResident n i.lines false).trigDecode n x i.pc

/-- The engine signal of an instruction whose SIG_EN is set is on its way to its core tally (R122, R234). -/
def State.signalTally (s : State) (n x : Nat) (i : Ins) : State :=
  if bitAt i.desc.w0 40 then
    { s with sync := { s.sync with signals := s.sync.signals ++
        [{ core := n, tally := fld i.desc.w0 47 41, ctx := x, epoch := i.epoch, pc := i.pc, step := s.stepNo }] } }
  else s

/-- The refusal of a SIG_TALLY at issue (R234): CONFLICT or ORPHAN in class 0x30. -/
def State.sigRefusal (s : State) (n x : Nat) (d : Desc) : Option Nat :=
  if !bitAt d.w0 40 then none
  else
    let t := fld d.w0 47 41
    if s.coreOwner n 0 t ≠ x then some cCONFLICT
    else if s.orphaned n 0 t then some 0x41
    else none

/-- FAULT.CLASS of a descriptor refusal: 0x30 when it is the SIG_TALLY field that failed (R234). -/
def refusalClass (cls : Nat) (r : Refuse) : Nat := if r.word = 0 ∧ r.bit = 41 then 0x30 else cls

/-! ## Faults of the issue unit (R130, R456, R462, R475) -/

/-- Entries of the spare record. -/
def State.spareUsed (s : State) : Nat := s.boot.spareSlots.length + s.boot.sparePchs.length

/-- A core slot is added to the spare record, once; a full record raises SPARE_FULL (R462). -/
def State.addSpareSlot (s : State) (slot : Nat) : State :=
  if s.boot.spareSlots.contains slot then s
  else if 32 ≤ s.spareUsed then s.raise (pRAS 0) 4
  else ({ s with boot := { s.boot with spareSlots := insSet s.boot.spareSlots slot } } : State).raise (pRAS 0) 3

/-- A pseudo-channel is added to the spare record (R319, R462). -/
def State.addSparePch (s : State) (pch : Nat) : State :=
  if s.boot.sparePchs.contains pch then s
  else if 32 ≤ s.spareUsed then s.raise (pRAS 0) 4
  else ({ s with boot := { s.boot with sparePchs := insSet s.boot.sparePchs pch } } : State).raise (pRAS 0) 3

/-- RAS.HS_CAPTURE and the event of a die's handshake timeout or parity fault: captured when the event bit
read 0 before (R315, R475). -/
def State.hsCapture (s : State) (die cluster core : Nat) (parity : Bool) : State :=
  let page := pRAS (1 + die)
  let v : Nat := 2 ^ 63 + b2n parity * 2 ^ 16 + core * 2 ^ 8 + cluster
  let s := if bitAt (s.reg page 0x030) (b2n parity) then s else s.setReg page 0x100 (BitVec.ofNat 64 v)
  s.raise page (b2n parity)

/-- A handshake timeout or a parity fault of a core's issue unit: both contexts fault, and a core whose slot has
delivered CORE_RETIRE_N of them since power-on leaves service at the next selection (R462). -/
def State.coreFault (s : State) (n : Nat) (parity : Bool) : State :=
  let s := s.hsCapture (dieOf n) (s.clusterOf n) n parity
  let s := s.faultBoth n { unit := 8, cls := 0x21, code := if parity then 0x41 else 0x40, pc := s.ctxPc n 0 }
  let s := s.contained
  let slot := s.slotOf n
  let count := Tab.get s.boot.slotFaults 0 slot + 1
  let s := { s with boot := { s.boot with slotFaults := Tab.put s.boot.slotFaults slot count } }
  let limit := s.rf (pRAS 0) 0x100 23 16
  if limit ≠ 0 ∧ limit ≤ count then s.addSpareSlot slot else s

/-! ## The envelope (R432, R440) -/

/-- A core has an instruction released or in flight (R432). -/
def State.coreBusy (s : State) (n : Nat) : Bool :=
  (s.island (s.islandOf n)).released.any (fun r => r.1 == n) || (s.core n).c0.fly != [] || (s.core n).c1.fly != []

/-- Committed demand of a cluster island at its present voltage: the floor, the cores with anything released or in flight,
the released instructions. -/
def State.committed (s : State) (i : Nat) : Nat :=
  let l := s.island i
  let cores := (rangeFrom (s.clusterFirst (i / 8) (i % 8)) (s.clusterCores (i / 8) (i % 8))).filter s.coreBusy
  s.floorDemand i + cores.length * s.scaleDemand (s.vidNow i) 25 +
    (l.released.map (fun r => s.scaleDemand (s.vidNow i) r.2.2.2)).sum

/-- What a release adds to the committed demand of its island. -/
def State.addedDemand (s : State) (n base : Nat) : Nat :=
  let i := s.islandOf n
  (if s.coreBusy n then 0 else s.scaleDemand (s.vidNow i) 25) + s.scaleDemand (s.vidNow i) base

/-- The envelope of an island covers one more release. -/
def State.fits (s : State) (n base : Nat) : Bool :=
  decide (s.committed (s.islandOf n) + s.addedDemand n base ≤ s.envelopeNow (s.islandOf n)) && s.pwr.stopped.isNone

/-- Ceiling of a cluster island under the package cap (R433). -/
def State.capCeiling (s : State) (i : Nat) : Nat :=
  (s.rf (pPWR 32) 0x140 11 0 - 540) * 100 * s.clusterCores (i / 8) (i % 8) / (12 * 144)

/-- What a lending island gives up: its ceiling down to its floor demand (R433). -/
def State.given (s : State) (i : Nat) : Nat := if (s.island i).lends then s.capCeiling i - s.floorDemand i else 0

/-- Ceiling of a cluster island, less what it gives up. -/
def State.ceilingOf (s : State) (i : Nat) : Nat := s.capCeiling i - s.given i

/-- Islands of the die that share what a lending island gives up: those of the die that do not lend. -/
def State.borrowers (s : State) (i : Nat) : List Nat := (rangeFrom (i / 8 * 8) 8).filter (fun j => !(s.island j).lends)

/-- Ceiling of a cluster island with what it borrows: the lenders' ceilings in proportion to the enabled
cores of the borrowers (R433). -/
def State.ceiling (s : State) (i : Nat) : Nat :=
  let own := s.ceilingOf i
  if (s.island i).lends then own
  else
    let lent := ((rangeFrom (i / 8 * 8) 8).map s.given).sum
    let share := ((s.borrowers i).map (fun j => s.clusterCores (j / 8) (j % 8))).sum
    own + (if share = 0 then 0 else lent * s.clusterCores (i / 8) (i % 8) / share)

/-- The highest VID from `v` down at which full demand fits under the ceiling. -/
def State.vidUnder (s : State) (i ceil v : Nat) : Nat :=
  match v with
  | 0 => 0
  | k + 1 => if ceil < s.fullDemand i (k + 1) then s.vidUnder i ceil k else k + 1

/-- VID of a cluster island before its ceiling applies, at a levelling raise (R434). -/
def State.vidWanted (s : State) (i lev : Nat) : Nat :=
  min (s.rf (pPWR i) 0x100 5 0 + lev) (s.rf (pPWR i) 0x100 13 8) - s.rf (pPWR i) 0x108 29 24

/-- island_vid of R434 for a cluster island at a levelling raise. -/
def State.islandVid (s : State) (i lev : Nat) : Nat := s.vidUnder i (s.ceiling i) (s.vidWanted i lev)

/-- Both VID fields of a cluster island. -/
def State.setVid (s : State) (i vid : Nat) : State := (s.setRf (pPWR i) 0x108 13 8 vid).setRf (pPWR i) 0x108 5 0 vid

/-- Where a ramp up of a cluster island goes: the lower of full demand and ceiling (R440). -/
def State.rampTop (s : State) (i : Nat) : Nat := min (s.fullDemand i (s.vidNow i)) (s.ceiling i)

/-- A release that finds the envelope short waits: it is counted once, and a ramp up is requested (R440), but while a power stop
holds it (R446). -/
def State.waitEnvelope (s : State) (n x seq : Nat) : State :=
  let i := s.islandOf n
  let l := s.island i
  let s := if l.waiting.contains (n, x, seq) then s
    else (s.setIsland i { l with waiting := l.waiting ++ [(n, x, seq)] }).addReg (pPWR i) 0x118 1
  let up := s.rampTop i
  if s.pwr.stopped.isNone ∧ s.envelopeGoal i < up then s.requestRamp i up else s

/-- A release would change nothing but repeat its wait for the envelope. -/
def State.waitsAlready (s : State) (n x seq : Nat) : Bool :=
  (s.island (s.islandOf n)).waiting.contains (n, x, seq) &&
    (s.pwr.stopped.isSome || decide (s.rampTop (s.islandOf n) ≤ s.envelopeGoal (s.islandOf n)))

/-- A release commits its demand. -/
def State.commitDemand (s : State) (n x seq base : Nat) : State :=
  let i := s.islandOf n
  let l := s.island i
  s.setIsland i { l with
    released := l.released ++ [(n, x, seq, base)]
    waiting := l.waiting.filter (fun w => w != (n, x, seq)) }

/-- A completion gives its demand back. -/
def State.freeDemand (s : State) (n x seq : Nat) : State :=
  let i := s.islandOf n
  let l := s.island i
  s.setIsland i { l with released := l.released.filter (fun r => !(r.1 == n && r.2.1 == x && r.2.2.1 == seq)) }

/-! ## Sync descriptors (R254, R255) -/

/-- OPCODE. -/
def opOf (d : Desc) : Nat := fld d.w0 7 0

/-- Wicket service: only the cores of C0 on D0, their objects and those of D0 are there (R418). -/
def State.inWicket (s : State) : Bool := decide (s.stage < 3)

/-- Conditions of a sync descriptor on words 0 and 1. -/
def State.syncChecks01 (s : State) (n x : Nat) (d : Desc) : List Check :=
  let op := opOf d
  let scope := fld d.w1 33 32
  let kind := fld d.w1 13 13
  let idx := fld d.w1 12 0
  let core := fld d.w1 47 40
  let g := s.gaddr d.w1
  let lim : Nat := if scope = 0 then (if kind = 0 then 128 else 32) else (if kind = 0 then 8192 else 2048)
  [ (0, 0, cRANGE, decide (op < 0x50 ∨ 0x55 < op)), resv d 0 31 8, resv d 0 39 37, resv d 0 47 45,
    ((if op = 0x53 then 3 else 0), (if op = 0x53 then 1 else 48), cRANGE,
      fld d.w0 63 48 != 0 && !(op == 0x51 || (op == 0x53 && bitAt d.w3 1))),
    (1, 32, cRANGE, decide (lim ≤ idx)),
    (1, 13, cRANGE, (kind == 0 && (op == 0x52 || op == 0x53)) || (kind == 1 && (op == 0x50 || op == 0x51))),
    resv d 1 31 14, resv d 1 35 34, resv d 1 39 38,
    (1, 32, cRANGE, decide (2 ≤ scope) || (scope == 0 && (op == 0x54 || op == 0x55))),
    (1, 36, cRANGE, scope == 0 && fld d.w1 37 36 != 0),
    (1, 36, cDEPENDENCY, s.inWicket && scope == 1 && fld d.w1 37 36 != 0),
    (1, 40, cRANGE, (scope == 1 && core != 0) || (scope == 0 && decide (144 ≤ core))),
    (1, 40, cDEPENDENCY, s.inWicket && scope == 0 && decide (s.clusterCores 0 0 ≤ core)),
    (1, 48, cRANGE, gBad d.w1),
    (1, 48, cCONFLICT, scope == 0 && (op == 0x51 || op == 0x53) &&
      (g.node != s.nodeId || core != n || s.coreOwner n kind idx != x)),
    (1, 48, cDEPENDENCY, s.inWicket && g.node != s.nodeId),
    (1, 48, cROUTE, !bitAt d.w1 63 && g.node != s.nodeId && !s.inSlice g.node) ]

/-- Conditions of a sync descriptor on words 2 to 7. -/
def syncChecks27 (d : Desc) : List Check :=
  let op := opOf d
  let amt := fld d.w2 31 0
  [ (2, 0, cRANGE, (op == 0x50 && amt == 0) || ((op == 0x52 || op == 0x53) && (amt == 0 || decide (2 ^ 31 ≤ amt))) ||
      (decide (0x54 ≤ op) && d.w2 != 0)),
    (2, 32, cRANGE, (op == 0x50 || op == 0x52 || op == 0x53) && fld d.w2 63 32 != 0),
    (3, 0, cRANGE, bitAt d.w3 0 && (op != 0x51 || decide (2 ^ 63 < d.w2.toNat))),
    (3, 1, cRANGE, bitAt d.w3 1 && op != 0x53),
    resv d 3 63 2, resv d 4 63 0, resv d 5 63 0, resv d 6 63 0, resv d 7 63 0 ]

/-- The first refusal of a sync descriptor. -/
def State.syncRefusal (s : State) (n x : Nat) (d : Desc) : Option Refuse :=
  firstRefusal (s.syncChecks01 n x d ++ syncChecks27 d)

/-! ## What a holding unit does (R235 to R247) -/

/-- A PTAKE with WAIT = 0 (R238, R239). -/
def State.takePool (s : State) (unit idx count : Nat) : Nat × State :=
  if s.orphaned unit 1 idx then (0x41, s)
  else
    let o := s.obj unit 1 idx
    if o.value < count then (0x40, s.raise (pSYN unit) 0)
    else (cOK, s.setObj unit 1 idx { o with value := o.value - count })

/-- SOWN (R246). -/
def State.ownObj (s : State) (unit kind idx node core ctx epoch : Nat) : Nat × State :=
  let o := s.obj unit kind idx
  let mine := o.ownerNode == node && o.ownerCore == core && o.ownerCtx == ctx
  if o.owned && !o.orphaned && !mine then (cCONFLICT, s)
  else (cOK, s.setObj unit kind idx
    { o with owned := true, orphaned := false, ownerNode := node, ownerCore := core, ownerCtx := ctx, ownerEpoch := epoch })

/-- SDROP (R246). -/
def State.dropObj (s : State) (unit kind idx node core ctx epoch : Nat) : Nat × State :=
  let o := s.obj unit kind idx
  let mine := o.ownerNode == node && o.ownerCore == core && o.ownerCtx == ctx && o.ownerEpoch == epoch
  if !o.owned || o.orphaned || !mine then (cCONFLICT, s)
  else if o.waiters ≠ [] then (cSTATE, s)
  else (cOK, s.setObj unit kind idx { o with owned := false, ownerNode := 0, ownerCore := 0, ownerCtx := 0, ownerEpoch := 0 })

/-- A sync operation that does not wait, applied by the unit that holds the object: its code. -/
def State.applySync (s : State) (unit op kind idx amount epoch : Nat) (a : Signaller) : Nat × State :=
  match op with
  | 0x50 => s.addTally unit idx amount a
  | 0x52 => s.addPool unit idx amount a
  | 0x53 => s.takePool unit idx amount
  | 0x54 => s.ownObj unit kind idx a.node a.core a.ctx epoch
  | 0x55 => s.dropObj unit kind idx a.node a.core a.ctx epoch
  | _ => (cRANGE, s)

/-- A unit ends a wait with TIMEOUT: its event, and a contained error (R245, R257, R454). -/
def State.timedOut (s : State) (unit : Nat) : State := (s.raise (pSYN unit) 2).contained

/-- A wait served by the unit that holds the object (R243 steps 3 and 4): none when it is registered, else
the code that ends it. `limit` says whether the unit counts watches; a die unit's injections strike here
(R517). -/
def State.serveWait (s : State) (unit op idx : Nat) (amount : Nat) (rel : Bool) (w : Waiter) (limit : Bool) : Option Nat × State :=
  let kind : Nat := if op = 0x51 then 0 else 1
  if s.orphaned unit kind idx then (some 0x41, s)
  else
    let o := s.obj unit kind idx
    let target := if rel then (o.value + amount) % 2 ^ 64 else amount
    if op = 0x51 ∧ reached o.value target then (some cOK, s)
    else if op ≠ 0x51 ∧ o.waiters = [] ∧ amount ≤ o.value then (some cOK, s.setObj unit kind idx { o with value := o.value - amount })
    else
      let inj := if limit then s.inject (pSYN unit) 2 else (false, s)
      if limit && (inj.1 || decide (4096 ≤ s.rf (pSYN unit) 0x188 12 0)) then
        (some cCAPACITY, (inj.2.raise (pSYN unit) 4).contained)
      else
        let s := inj.2
        let w := { w with amount := if op = 0x51 then target else amount, take := op != 0x51 }
        let s := (s.setObj unit kind idx { o with waiters := o.waiters ++ [w] }).countWatches unit
        let early := if limit then s.inject (pSYN unit) 1 else (false, s)
        if early.1 then (some 0x42, (early.2.freeWatch unit w.node w.core w.ctx w.tag).2.timedOut unit) else (none, early.2)

/-! ## Release of sync instructions (R240 to R243) -/

/-- The fault of a sync instruction. -/
def State.syncFault (s : State) (n x : Nat) (i : Ins) (code : Nat) : State :=
  (s.finishIns n x i).faultCtx n x { unit := 7, cls := 0x30, code := code, pc := i.pc }

/-- A sync instruction in flight ends with a code. -/
def State.endSync (s : State) (n x : Nat) (i : Ins) (code : Nat) : State :=
  if code = cOK then s.finishIns n x i else s.syncFault n x i code

/-- The context's instruction in flight waits for an answer. -/
def State.setWait (s : State) (n x : Nat) (w : WaitSt) : State := s.setCtx n x { s.ctx n x with wait := some w }

/-- A tag for a wait on this node. -/
def State.waitTag (s : State) : Nat × State :=
  (s.sync.nextTag, { s with sync := { s.sync with nextTag := s.sync.nextTag + 1 } })

/-- A sync operation leaves for another node (R243 step 2, R519). -/
def State.sendSync (s : State) (n x : Nat) (i : Ins) (node : Nat) : State :=
  let d := i.desc
  let t := s.newTag
  let s := t.2
  let p := s.mkPacket node 0x04 0 t.1 (fld d.w1 47 0) ((i.op % 16) * 2 ^ 60) d.w2
    (syncUnit i.pc s.stepNo n x i.epoch (b2n (bitAt d.w3 0) + 2 * b2n (bitAt d.w3 1)))
  let w : WaitSt :=
    { tag := t.1, ins := i, die := some (fld d.w1 37 36), node := node, timed := fld d.w0 63 48 != 0, cancelled := false }
  (s.setWait n x w).sendPacket (dieOf n) p

/-- Waits on die-scope objects of this node: a request is on its way to the die unit. -/
def State.askWatch (s : State) (n x : Nat) (i : Ins) : State :=
  let d := i.desc
  let t := s.waitTag
  let s := t.2
  let die := fld d.w1 37 36
  let r : SyncReq := {
    die := die, op := i.op, kind := fld d.w1 13 13, index := fld d.w1 12 0
    amount := if i.op = 0x51 then d.w2.toNat else fld d.w2 31 0
    rel := bitAt d.w3 0, waits := true, node := s.nodeId, core := n, ctx := x, epoch := i.epoch, tag := t.1
    pc := i.pc, step := s.stepNo, slot := 2 * n + x }
  let s := s.setWait n x { tag := t.1, ins := i, die := some die, node := s.nodeId, timed := fld d.w0 63 48 != 0, cancelled := false }
  { s with sync := { s.sync with reqs := s.sync.reqs ++ [r] } }

/-- Waits on core-scope objects of the context's own core use its wire alone. -/
def State.wireWait (s : State) (n x : Nat) (i : Ins) : State :=
  let d := i.desc
  let t := s.waitTag
  let w : Waiter := { node := s.nodeId, core := n, ctx := x, epoch := i.epoch, tag := t.1, amount := 0, take := false }
  let r := t.2.serveWait n i.op (fld d.w1 12 0) (if i.op = 0x51 then d.w2.toNat else fld d.w2 31 0) (bitAt d.w3 0) w false
  match r.1 with
  | some code => r.2.endSync n x i code
  | none => r.2.setWait n x { tag := t.1, ins := i, die := none, node := s.nodeId, timed := fld d.w0 63 48 != 0, cancelled := false }

/-- A sync instruction is released. -/
def State.releaseSync (s : State) (n x : Nat) (i : Ins) : State :=
  let s := s.takeIns n x i
  let d := i.desc
  let scope := fld d.w1 33 32
  let node := (s.gaddr d.w1).node
  let waits := i.op == 0x51 || (i.op == 0x53 && bitAt d.w3 1)
  if node ≠ s.nodeId then s.sendSync n x i node
  else if waits && scope == 1 then s.askWatch n x i
  else if waits then s.wireWait n x i
  else
    let unit := if scope = 0 then fld d.w1 47 40 else 144 + fld d.w1 37 36
    let s := if scope = 0 then s else s.tookSlot (unit - 144) (2 * n + x)
    let r := s.applySync unit i.op (fld d.w1 13 13) (fld d.w1 12 0) (fld d.w2 31 0) i.epoch
      { node := s.nodeId, core := n, ctx := x, pc := i.pc, step := s.stepNo }
    r.2.endSync n x i r.1

/-! ## Transaction descriptors (R287, R288) -/

/-- Conditions of a transaction descriptor that are judged at decode. -/
def State.txnChecks (s : State) (n x : Nat) (d : Desc) : List Check :=
  let op := opOf d
  let txb := op == 0x60
  let scope := fld d.w0 17 16
  let parts := fld d.w1 40 32
  let addr := fld d.w2 21 0
  [ (0, 0, cRANGE, decide (op < 0x60 ∨ 0x64 < op)), resv d 0 15 8,
    (0, 16, cRANGE, (txb && scope == 0) || (!txb && scope != 0)),
    resv d 0 31 18, resv d 0 39 37, resv d 0 47 45, (0, 48, cRANGE, bitAt d.w0 48 && !txb), resv d 0 63 49,
    (1, 0, cRANGE, fld d.w1 7 0 != 0 && !(txb && scope == 2)), resv d 1 31 8,
    (1, 32, cRANGE, if txb && decide (2 ≤ scope) then parts == 0 || decide (288 < parts) else parts != 0),
    resv d 1 63 41,
    (2, 0, cRANGE, if txb then !s.inRegion n x addr 8 else addr != 0), (2, 0, cALIGN, txb && addr % 8 != 0), resv d 2 63 22,
    (3, 0, cRANGE, if op == 0x61 then decide (s.regionCount ≤ fld d.w3 9 0) else fld d.w3 9 0 != 0), resv d 3 63 10,
    resv d 4 63 0, resv d 5 63 0, resv d 6 63 0, resv d 7 63 0 ]

/-- The first refusal of a transaction descriptor at decode. -/
def State.txnRefusal (s : State) (n x : Nat) (d : Desc) : Option Refuse := firstRefusal (s.txnChecks n x d)

/-- A transaction instruction is refused at release. -/
def State.txnFault (s : State) (n x : Nat) (i : Ins) (r : Refuse) : State :=
  let s := if i.lines = [] then s else s.setResident n i.lines true
  (s.finishIns n x i).faultCtx n x { unit := 7, cls := 0x31, code := r.code, pc := i.pc, info := r.info }

/-- The TXCs and TXEs of a context whose TXB has been refused are refused with it: they leave their queue, and the
resident bits that their decode cleared are set again (R275). -/
def State.dropEnds (s : State) (n x : Nat) : State :=
  let c := s.ctx n x
  let ends := c.queue.filter (fun j => j.op == 0x62 || j.op == 0x64)
  let s := s.setCtx n x { c with queue := c.queue.filter (fun j => !(j.op == 0x62 || j.op == 0x64)) }
  ends.foldl (fun (s : State) (j : Ins) => s.setResident n j.lines true) s

/-- Die of the unit that holds the transaction a TXB names (R259). -/
def txbDie (n : Nat) (d : Desc) : Nat :=
  match fld d.w0 17 16 with
  | 1 => dieOf n
  | 2 => fld d.w1 7 0 % 4
  | _ => 0

/-- The transaction that a TXB of package or machine scope would join. -/
def State.txbJoins (s : State) (d : Desc) : Option Txn :=
  let scope := fld d.w0 17 16
  s.txn.txns.find? (fun t => t.scope == scope && t.state != 6 && (scope == 3 || (scope == 2 && t.txid == fld d.w1 7 0)))

/-- The refusal of a TXB at release (R272, R279, R288). -/
def State.txbRefusal (s : State) (n x : Nat) (d : Desc) : Option Refuse :=
  let scope := fld d.w0 17 16
  let parts := fld d.w1 40 32
  let die := txbDie n d
  let off := !(s.rf (pTXN die) 0x100 0 0 == 1 && s.enabled (pTXN die))
  firstRefusal [
    (0, 0, cSTATE, (s.ctx n x).txn.isSome),
    (0, 16, cSTATE, scope == 3 && s.evalActive),
    ((if scope = 2 then 1 else 0), (if scope = 2 then 0 else 16), cDEPENDENCY, off),
    (1, 32, cCONFLICT, match s.txbJoins d with
      | none => false
      | some t => t.parts != parts || decide (t.parts ≤ t.members.length)) ]

/-- A TXB is served: the context opens or joins its transaction. -/
def State.openTxn (s : State) (n x : Nat) (d : Desc) : State :=
  let scope := fld d.w0 17 16
  let m : Member := { core := n, ctx := x, status := fld d.w2 21 0 }
  let s := if bitAt d.w0 48 then s.voidSeq 36 else s
  match s.txbJoins d with
  | some t =>
    let s := s.mapTxn t.id (fun t => { t with members := t.members ++ [m] })
    (s.setCtx n x { s.ctx n x with txn := some t.id }).txnRegs
  | none =>
    let t : Txn := {
      id := s.txn.nextId, scope := scope, txid := fld d.w1 7 0, die := txbDie n d
      parts := if scope = 1 then 1 else fld d.w1 40 32, members := [m], state := 1 }
    let s := { s with txn := { s.txn with txns := s.txn.txns ++ [t], nextId := s.txn.nextId + 1 } }
    (s.setCtx n x { s.ctx n x with txn := some t.id }).txnRegs

/-- Member record of a context in a transaction. -/
def Txn.member (t : Txn) (n x : Nat) : Option Member := t.members.find? (fun m => m.core == n && m.ctx == x)

/-- The transaction with the member records of a context changed. -/
def Txn.mapMember (t : Txn) (n x : Nat) (f : Member → Member) : Txn :=
  { t with members := t.members.map (fun m => if m.core = n ∧ m.ctx = x then f m else m) }

/-- The context's open transaction. -/
def State.openOf (s : State) (n x : Nat) : Option Txn :=
  match (s.ctx n x).txn with
  | none => none
  | some id => s.findTxn id

/-- The STATE refusals of TXO, TXC, TXA and TXE (R288). -/
def State.txnState (s : State) (n x op : Nat) : Bool :=
  match s.openOf n x with
  | none => true
  | some t =>
    match t.member n x with
    | none => true
    | some m =>
      match op with
      | 0x61 => m.txc && t.state != 5
      | 0x62 => m.txc
      | 0x63 => m.txc
      | _ => t.scope != 3 || !m.txcDone || m.txe

/-- The other open transaction that has opened a region. -/
def State.openedByOther (s : State) (id r : Nat) : Bool :=
  s.txn.txns.any (fun t => t.id != id && t.state != 6 && t.regions.contains r)

/-- The region's write copy is pinned, so that a TXO of it waits (R228, R268). -/
def Entry.waits (e : Entry) : Bool := e.copies == 2 && e.pinned && e.pin == e.writeCopy

/-- A TXO opens its region (R268). -/
def State.openRegion (s : State) (id r : Nat) : State :=
  let e := s.entry r
  (s.setEntry r { e with ctrl := setBit e.ctrl 19 true }).mapTxn id (fun t => { t with regions := insSet t.regions r })

/-- A TXO is served, or waits for a pin (R268). -/
def State.serveTxo (s : State) (n x : Nat) (i : Ins) (t : Txn) : State :=
  let r := fld i.desc.w3 9 0
  let e := s.entry r
  if t.regions.contains r then s.finishIns n x i
  else if !s.entryOk e then s.txnFault n x i { code := cRANGE, word := 3, bit := 0 }
  else if s.openedByOther t.id r then
    ((s.txnCause t.id 8 cCONFLICT 0 n x).raise (pTXN t.die) 1).finishIns n x i
  else if e.waits then
    (s.setCtx n x { s.ctx n x with txWait := 0x61 }).raise (pTXN t.die) 4
  else (s.openRegion t.id r).finishIns n x i

/-- A TXC is served: its part is ready (R273, R276). -/
def State.serveTxc (s : State) (n x : Nat) (t : Txn) : State :=
  let s := s.setCtx n x { s.ctx n x with txWait := 0x62 }
  (s.mapTxn t.id (fun t => t.mapMember n x (fun m => { m with txc := true }))).txnRegs

/-- A TXE is served: after an abort it completes with ENDED at once, else it waits for the other parts
(R277). -/
def State.serveTxe (s : State) (n x : Nat) (t : Txn) : State :=
  let s := (s.mapTxn t.id (fun t => t.mapMember n x (fun m => { m with txe := true }))).txnRegs
  if t.state = 6 then
    let a := match t.member n x with
      | none => 0
      | some m => m.status
    let s := s.endTxIns n x a (statusWord 6 t.cause t.code t.cls)
    let s := s.mapTxn t.id (fun t => t.mapMember n x (fun m => { m with txeDone := true }))
    s.setCtx n x { s.ctx n x with txn := none }
  else s.setCtx n x { s.ctx n x with txWait := 0x64 }

/-- A transaction instruction is released. -/
def State.releaseTxn (s : State) (n x : Nat) (i : Ins) : State :=
  let s := s.takeIns n x i
  if i.op = 0x60 then
    match s.txbRefusal n x i.desc with
    | some r => ((s.setCtx n x { s.ctx n x with statusAddr := none }).dropEnds n x).txnFault n x i r
    | none => (s.openTxn n x i.desc).finishIns n x i
  else if s.txnState n x i.op then s.txnFault n x i { code := cSTATE, word := 0, bit := 0 }
  else
    match s.openOf n x with
    | none => s
    | some t =>
      match i.op with
      | 0x61 => s.serveTxo n x i t
      | 0x62 => s.serveTxc n x t
      | 0x63 => (s.txnCause t.id 1 0 0 n x).finishIns n x i
      | _ => s.serveTxe n x t

end Sys2Proof.Machine
end

