-- ==== Sys2Proof/Machine/Preempt.lean ====
section
/-! DEFINITION. Pre-emption and resume: what must end first, the save record of an array, its restoration
(R248, R283). -/

namespace Sys2Proof.Machine

/-- Base of an array's save record (R283). -/
def State.saveAddr (s : State) (n a : Nat) : Nat :=
  s.rf (pTXN (dieOf n)) 0x108 47 12 * 4096 + (4 * (n % 36) + a) * 0x210000

/-- Words of an A-store set, 131,072 of them; entries beyond the tile are 0. -/
def ASet.words (z : ASet) (n : Nat) : List Byte :=
  (List.range 131072).flatMap (fun i => if i < n then natLe 8 (Tab.get z.a 0 i).toNat else [0, 0, 0, 0, 0, 0, 0, 0])

/-- The poison plane of an A-store set. -/
def ASet.plane (z : ASet) (n : Nat) : List Byte :=
  (List.range 16384).map (fun i =>
    BitVec.ofNat 8 ((List.range 8).map (fun b => if 8 * i + b < n ∧ z.poison.contains (8 * i + b) then 2 ^ b else 0)).sum)

/-- Entries that a set's tile holds. -/
def ASet.entries (z : ASet) : Nat := z.rows * (if z.shape = 1 then 1024 else 128)

/-- The save record of an array. -/
def State.saveRecord (s : State) (n a : Nat) : List Byte :=
  let k := s.arr n a
  let live := if s.liveState n a = 0 then 0 else k.live.entries
  let shadow := if s.shadowState n a = 0 then 0 else k.shadow.entries
  k.live.words live ++ k.shadow.words shadow ++ k.live.plane live ++ k.shadow.plane shadow ++
    natLe 8 (s.reg (pMXA n a) 0x100).toNat ++ natLe 8 (s.reg (pMXA n a) 0x188).toNat ++
    natLe 8 (s.reg (pMXA n a) 0x190).toNat ++ List.replicate 40 0

/-- An array has something to save. -/
def State.toSave (s : State) (n a : Nat) : Bool := s.liveState n a != 0 || s.shadowState n a != 0

/-- An A-store set as its part of a save record spells it. -/
def State.loadSet (s : State) (z : ASet) (words plane : Nat) : ASet :=
  { z with
    a := (List.range z.entries).foldl (fun (t : Tab Word) (i : Nat) => Tab.set t 0 i (BitVec.ofNat 64 (s.memNat (words + 8 * i) 8))) []
    poison := (List.range z.entries).filter (fun i => (s.memNat (plane + i / 8) 1).testBit (i % 8))
    bad := [] }

/-- An array is restored from its save record. -/
def State.restoreArr (s : State) (n a : Nat) : State :=
  let b := s.saveAddr n a
  let k := s.arr n a
  let s := s.setArr n a { k with
    live := if s.liveState n a = 0 then k.live else s.loadSet k.live b (b + 0x200000)
    shadow := if s.shadowState n a = 0 then k.shadow else s.loadSet k.shadow (b + 0x100000) (b + 0x204000) }
  let get (i : Nat) : Word := BitVec.ofNat 64 (s.memNat (b + 0x208000 + 8 * i) 8)
  ((s.setReg (pMXA n a) 0x100 (get 0)).setReg (pMXA n a) 0x188 (get 1)).setReg (pMXA n a) 0x190 (get 2)

/-- Arrays of the package that have something to save. -/
def State.savedArrs (s : State) : List (Nat × Nat) :=
  (s.arrs.map (fun e => (e.1 / 4, e.1 % 4))).filter (fun e => s.toSave e.1 e.2)

/-- What pre-emption waits for has ended: runs, quantiser, vector and drain instructions, commit windows. -/
def State.quiet (s : State) : Bool :=
  s.cores.all (fun e => e.2.qnt.isNone && e.2.vec.isNone &&
    (e.2.c0.fly ++ e.2.c1.fly).all (fun i => decide (3 ≤ i.cls))) &&
    s.txn.txns.all (fun t => t.state != 3)

/-- The job is pre-empted (R283): open tiles and full shadow sets are saved, OPEN transactions abort with PREEMPT,
RUNNING contexts become PREEMPTED. -/
def State.preemptNow (s : State) : State :=
  let s := s.savedArrs.foldl (fun (s : State) (e : Nat × Nat) => s.writeLocal (s.saveAddr e.1 e.2) (s.saveRecord e.1 e.2)) s
  let s := s.txn.txns.foldl (fun (s : State) (t : Txn) =>
    if t.state = 1 then
      (match t.members.head? with
      | none => s
      | some m => s.txnCause t.id 5 0 0 m.core m.ctx)
    else s) s
  let s := allCtxs.foldl (fun (s : State) (c : Nat) =>
    if s.ctxState (c / 2) (c % 2) = 1 then s.setCtxState (c / 2) (c % 2) 4 else s) s
  s.setJob 3

/-- A PREEMPT that waits completes, or is refused when the job has halted or faulted first (R404). -/
def State.tryPreempt (s : State) : State :=
  match s.queuesWith 0x07 with
  | [] => s
  | q :: _ =>
    if s.job ≠ 2 then s.completeCmd q cSTATE 0 0
    else if s.quiet then s.preemptNow.completeCmd q cOK 0 0
    else s

/-- The pre-empted job goes on (R283, R248, R35). -/
def State.resumeJob (s : State) : State :=
  let s := s.savedArrs.foldl (fun (s : State) (e : Nat × Nat) => s.restoreArr e.1 e.2) s
  let s := allCtxs.foldl (fun (s : State) (c : Nat) =>
    if s.ctxState (c / 2) (c % 2) = 4 then s.setCtxState (c / 2) (c % 2) 1 else s) s
  let s := allCtxs.foldl (fun (s : State) (c : Nat) =>
    match (s.ctx (c / 2) (c % 2)).heldWake with
    | none => s
    | some w =>
      let s := s.setCtx (c / 2) (c % 2) { s.ctx (c / 2) (c % 2) with heldWake := none }
      { s with sync := { s.sync with wakes := s.sync.wakes ++ [w] } }) s
  (s.voidSeq 35).setJob 2

end Sys2Proof.Machine
end

