-- ==== Sys2Proof/Machine/Progress.lean ====
section
/-! DEFINITION. What the package does of itself after a command: collectives reach their engines, sync and
transaction instructions are released, transactions and steps are decided (R118, R240, R273, R276, R351). -/

namespace Sys2Proof.Machine

/-! ## The common profile (R376, R377) -/

/-- GEN.ALLOWED by BASE. -/
def allowedOf (base : Nat) : Nat :=
  match base with
  | 1 => 0x060DAF
  | 2 => 0x090481
  | _ => 0x137FFF

/-- An operand format field is outside the common profile. -/
def State.fmtOld (s : State) (v : Nat) : Bool :=
  let a := allowedOf s.genBase
  !(a.testBit (v % 16)) || (v / 64 % 4 != 0 && !(a.testBit (8 + v / 64 % 4)))

/-! ## The collective descriptor (R366, R367) -/

/-- An address that a collective cannot use: register space or a reserved region. -/
def State.notMemory (s : State) (a : Nat) : Bool :=
  match s.place a with
  | .hbm => false
  | .scratch _ => false
  | .store _ _ => false
  | .register _ _ => true
  | .reserved => true

/-- The two ends of a range are in one kind of memory. -/
def State.oneKind (s : State) (a n : Nat) : Bool :=
  match s.place a, s.place (a + n - 1) with
  | .hbm, .hbm => true
  | .scratch _, .scratch _ => true
  | .store _ _, .store _ _ => true
  | _, _ => false

/-- The elements of SRC or DST reach beyond the memory of their first one: judged at N, the last field that the extents
depend on (R136, R352). -/
def State.collReaches (s : State) (d : Desc) : Bool :=
  let op := fld d.w0 26 24
  let axis := fld d.w0 39 38
  let ext := s.sExt axis
  let esz := if fld d.w0 35 34 = 0 then 4 else 8
  let count := fld d.w3 39 0
  let src := if op = 2 then count / ext
    else if op = 3 ∧ s.slicePos axis (coordOf s.nodeId axis) ≠ fld d.w0 23 19 then 0
    else count
  let dst := if op = 1 then count / ext else count
  (decide (0 < src) && !s.oneKind (fld d.w1 47 0) (src * esz)) || (decide (0 < dst) && !s.oneKind (fld d.w2 47 0) (dst * esz))

/-- Conditions of a collective descriptor. -/
def State.collChecks (s : State) (n x : Nat) (d : Desc) : List Check :=
  let op := fld d.w0 26 24
  let mode := fld d.w0 35 34
  let axis := fld d.w0 39 38
  let ext := s.sExt axis
  let fmt := fld d.w1 63 48
  let count := fld d.w3 39 0
  [ (0, 0, cRANGE, opOf d != 0x70), resv d 0 18 8,
    (0, 38, cRANGE, op == 3 && decide (axis < 3 ∧ ext ≤ fld d.w0 23 19)),
    (0, 24, cRANGE, decide (4 ≤ op)), resv d 0 31 27,
    (0, 34, cRANGE, decide (2 ≤ mode)), (0, 34, cVERSION, mode == 1 && !(allowedOf s.genBase).testBit 14),
    (0, 36, cDEPENDENCY, !s.enabled (pCOL (fld d.w0 37 36))),
    (0, 38, cRANGE, axis == 3),
    (0, 41, (s.sigRefusal n x d).getD 0, (s.sigRefusal n x d).isSome),
    (1, 0, cRANGE, s.notMemory (fld d.w1 47 0)), (1, 0, cALIGN, fld d.w1 47 0 % 64 != 0),
    (1, 48, cRANGE, fmt != (if mode = 0 then 7 else 0)), (1, 48, cVERSION, mode == 0 && s.fmtOld fmt),
    (2, 0, cRANGE, s.notMemory (fld d.w2 47 0)), (2, 0, cALIGN, fld d.w2 47 0 % 64 != 0), resv d 2 63 48,
    (3, 0, cRANGE, count == 0 || s.collReaches d),
    (3, 0, cALIGN, count % 16 != 0 || ((op == 1 || op == 2) && count % (16 * ext) != 0)), resv d 3 63 40,
    resv d 4 63 0, resv d 5 63 0, resv d 6 63 0, resv d 7 63 0 ]

/-- The first refusal of a collective descriptor. -/
def State.collRefusal (s : State) (n x : Nat) (d : Desc) : Option Refuse := firstRefusal (s.collChecks n x d)

/-- The collective that a descriptor spells. -/
def collJob (n x : Nat) (i : Ins) : CollJob :=
  let d := i.desc
  { axis := fld d.w0 39 38, id := fld d.w0 63 48, op := fld d.w0 26 24, mode := fld d.w0 35 34, root := fld d.w0 23 19,
    last := bitAt d.w0 33, grad := bitAt d.w0 32, src := fld d.w1 47 0, dst := fld d.w2 47 0, n := fld d.w3 39 0,
    by_ := some (n, x, i) }

/-- A collective instruction reaches the engine of its die; with LAST it carries the verdict on its axis
(R218, R351, R357). -/
def State.reachEngine (s : State) (n x : Nat) (i : Ins) : State :=
  let j := collJob n x i
  let s := s.takeIns n x i
  let s := { s with coll := { s.coll with queue := s.coll.queue ++ [(fld i.desc.w0 37 36, j)] } }
  if j.last && !s.evalActive then { s with step := { s.step with carried := insSet s.step.carried j.axis } } else s

/-! ## The pump -/

/-- A DMA instruction of the context that was decoded inside the transaction has not completed (R273). -/
def Ctx.dmaOf (c : Ctx) (id : Nat) : Bool := (c.queue ++ c.fly).any (fun j => j.cls == 3 && j.txn == some id)

/-- The oldest sync or transaction instruction of a context may be released (R240, R273, R302). -/
def State.syncMay (s : State) (n x : Nat) (i : Ins) : Bool :=
  let c := s.ctx n x
  s.runs n x && !c.fly.any (fun j => j.cls == 4) && !c.fenced i &&
    !(bitAt i.desc.w0 35 && s.wcbHolds n x) &&
    !(i.op == 0x62 && (match c.txn with
      | none => false
      | some id => c.dmaOf id))

/-- A release that finds the envelope of its island short waits, and is counted once (R440). -/
def State.envelopeWait (s : State) (n x : Nat) (i : Ins) : State :=
  if s.waitsAlready n x i.seq then s else s.waitEnvelope n x i.seq

/-- A release of its own no longer waits for the envelope. -/
def State.waitOver (s : State) (n x seq : Nat) : State :=
  let i := s.islandOf n
  let l := s.island i
  if l.waiting.contains (n, x, seq) then s.setIsland i { l with waiting := l.waiting.filter (fun w => w != (n, x, seq)) } else s

/-- The next sync or transaction instruction of a context is released when it may be. -/
def State.pumpSync (s : State) (n x : Nat) : State :=
  match (s.ctx n x).head 4 with
  | none => s
  | some i =>
    if !s.syncMay n x i then s
    else if !s.fits n 0 then s.envelopeWait n x i
    else
      let s := s.waitOver n x i.seq
      let r := s.inject (pCOR n) 1
      if r.1 then r.2.coreFault n false
      else if i.op < 0x60 then r.2.releaseSync n x i
      else r.2.releaseTxn n x i

/-- The collective instruction of a context that nothing holds from its engine (R118, R351). -/
def State.collNext (s : State) (n x : Nat) : Option Ins :=
  match (s.ctx n x).head 3 with
  | none => none
  | some i => if i.op == 0x70 && s.runs n x && !(s.ctx n x).held i then some i else none

/-- The collective at the head of a context's DMA queue reaches its engine when nothing holds it and the envelope covers
it. -/
def State.pumpColl (s : State) (n x : Nat) : State :=
  match s.collNext n x with
  | none => s
  | some i =>
    if !s.fits n 0 then s.envelopeWait n x i
    else
      let r := (s.waitOver n x i.seq).inject (pCOR n) 1
      if r.1 then r.2.coreFault n false
      else (r.2.reachEngine n x i).tookSlot (300 + fld i.desc.w0 37 36) (2 * n + x)

/-- Contexts in the order in which the collective engines take their instructions: that of the slots, in fixed-order mode
from the place of the engine's rotation on (R250, R370). -/
def State.collOrder (s : State) : List Nat :=
  let far (c : Nat) : Nat :=
    match s.collNext (c / 2) (c % 2) with
    | none => 0
    | some i => s.slotsAway (300 + fld i.desc.w0 37 36) c
  let cs := s.cores.flatMap (fun e => [2 * e.1, 2 * e.1 + 1]) |>.filter (fun c => (s.collNext (c / 2) (c % 2)).isSome)
  if s.fixedOrder then cs.insertionSort (fun a b => far a ≤ far b) else cs

/-- Every context with decoded instructions is served once. -/
def State.pumpAll (s : State) : State :=
  let s := s.collOrder.foldl (fun (s : State) (c : Nat) => s.pumpColl (c / 2) (c % 2)) s
  s.cores.foldl (fun s e => (s.pumpSync e.1 0).pumpSync e.1 1) s

/-- Transactions that can be decided are. -/
def State.decideAll (s : State) : State :=
  let s := s.txn.txns.foldl (fun (s : State) (t : Txn) =>
    match s.findTxn t.id with
    | none => s
    | some t => s.decideLocal t) s
  s.txn.txns.foldl (fun (s : State) (t : Txn) =>
    match s.findTxn t.id with
    | none => s
    | some t => s.applyMachine t) s

/-- One round of what the package does of itself. -/
def State.round (s : State) : State :=
  s.pumpAll.decideAll.payStatus.undecided.startHeaderOnly.noteReady.tryStepCommit.logStep.tryPreempt.freeRetrains.copyOn

/-- Instructions that rounds can still release. -/
def State.toRelease (s : State) : Nat :=
  (s.cores.map (fun e => e.2.c0.queue.length + e.2.c1.queue.length)).sum

/-- `n` rounds. -/
def State.rounds (s : State) (n : Nat) : State :=
  match n with
  | 0 => s
  | k + 1 => (s.round).rounds k

/-- Rounds until nothing more can be released. -/
def State.progress (s : State) : State := if s.live then s.rounds (s.toRelease + 1) else s

/-- The answer of a command after which the package goes on of itself. -/
def State.advance (s : State) : Res := s.progress.done

/-- The answer of an event of the package's own after which the package goes on of itself. -/
def happens (p : Bool) (s : State) : Res := if p then s.advance else .fault .notEnabled

/-! ## Issue of descriptors -/

/-- An instruction is decoded: a parity fault that an injection makes faults the core; `bad` is what a refusal
by the checks made at decode does, else the instruction is queued (R118, R136, R517). -/
def State.issueGen (s : State) (i : Issue) (cls : Nat) (bad : Option (Ins → State → State)) (lines : List Nat) : Res :=
  let n := i.core.val
  let x := i.ctx.val
  let ins := s.nextIns n x cls i.desc lines
  let r := s.inject (pCOR n) 2
  if !s.canDecode n x cls then .fault .notEnabled
  else if r.1 then (r.2.coreFault n true).advance
  else
    match bad with
    | some f => (f ins (r.2.decodeIns n x { ins with lines := [] } i.npc.toNat)).advance
    | none =>
      let t := r.2.decodeIns n x ins i.npc.toNat
      if cls = 3 ∨ cls = 4 then t.advance else t.done

/-- A refusal at decode faults the context. -/
def State.issue (s : State) (i : Issue) (cls unit fcls : Nat) (bad : Option Refuse) (lines : List Nat) : Res :=
  s.issueGen i cls (bad.map (fun (f : Refuse) (ins : Ins) (t : State) => t.faultCtx i.core.val i.ctx.val
    { unit := unit, cls := refusalClass fcls f, code := f.code, pc := ins.pc, info := f.info })) lines

end Sys2Proof.Machine
end

