-- ==== Sys2Proof/Machine/Writes.lean ====
section
/-! DEFINITION. How a register write is served or refused: the page and offset conditions, the recording in
REASON, the fault of a storing program (R42, R53 to R57, R418, R466). -/

namespace Sys2Proof.Machine

/-- The package is at the stage of a page: its block is powered (R413, R415, R418, R448, R475); with FAIL CONFIG only
the staging path and ATTEST are served (R414). -/
def State.pagePowered (s : State) (page : Nat) : Bool :=
  let c0 := s.clusterCores 0 0
  if 3 ≤ s.stage then true
  else
    match classify page with
    | none => false
    | some (c, i) =>
      let one := decide (1 ≤ s.stage) && s.rf pCFE 0x200 35 32 != 1
      let two := decide (2 ≤ s.stage)
      match c with
      | .dir => one
      | .cfe => decide (1 ≤ s.stage)
      | .sec => decide (1 ≤ s.stage)
      | .ras => one && i == 0
      | .thm => one && i == 0
      | .pwr => one && (decide (i < 8) || i == 32)
      | .cor => two && decide (i < c0)
      | .qnt => two && decide (i < c0)
      | .vec => two && decide (i < c0)
      | .mxa => two && decide (i / 4 < c0)
      | .syn => two && (decide (i < c0) || i == 144)
      | .llc => two && i == 0
      | .eth => two && i == 0
      | .rce => two && i == 0
      | .sht => two
      | .txn => false
      | .mem => false
      | .tor => false
      | .rtr => false
      | .col => false
      | .gen => false

/-- The page-level refusal of a write: an unlisted page, a reserved offset, a block-specific register of a block that is not
powered (R55, R56, R418). -/
def State.pageCode (s : State) (page off : Nat) : Option Nat :=
  match classify page with
  | none => some cRANGE
  | some (c, i) =>
    if (findReg c i off).isNone then some cRANGE
    else if decide (0x100 ≤ off) && !s.pagePowered page then some cLOCKED
    else none

/-- The class code of a page; COR for an address that is no page. -/
def pageClass (page : Nat) : Nat :=
  match classify page with
  | none => 0x21
  | some (c, _) => c.code

/-- A program access faults its context (R42, R131). -/
def State.faultStore (s : State) (n x cls code : Nat) : State :=
  s.faultCtx n x { unit := 8, cls := cls, code := code, pc := s.ctxPc n x }

/-- A page refuses a write: REASON records it with SOURCE 3, and a program's context faults (R54, R56). -/
def State.refuseWrite (s : State) (page off code : Nat) (src : Src) : State :=
  let s := if (classify page).isNone then s else s.setReason page off code 3
  match src with
  | .host => s
  | .keyhole => s
  | .program n x => s.faultStore n.val x.val (pageClass page) code

/-- RDMA requests of the host reach the package: from S1 the MSC serves port 0 until RCE[0] is enabled; a frozen
package discards every frame but the MSC's (R386, R413, R466). -/
def State.hostReach (s : State) : Bool :=
  decide (1 ≤ s.stage) && s.board.pwrgood && (if s.enabled (pRCE 0) then s.live else s.boot.mscUp)

/-- What a served write answers: a code other than OK refuses it. -/
def State.answerWrite (s : State) (page off : Nat) (src : Src) (eff : Nat × State) : State :=
  match s.pageCode page off with
  | some c => s.refuseWrite page off c src
  | none => if eff.1 = cOK then eff.2 else s.refuseWrite page off eff.1 src

/-- A write by the host, a program or Keyhole that has an effect of its own. -/
def State.serveRow (s : State) (page off : Nat) (src : Src) (eff : Nat × State) : Res :=
  match src with
  | .host => if s.hostReach then (s.answerWrite page off src eff).advance else s.done
  | .program n x => happens (s.runs n.val x.val) (s.answerWrite page off src eff)
  | .keyhole => (s.answerWrite page off src eff).advance

end Sys2Proof.Machine
end

