-- ==== Sys2Proof/WellFormed.lean ====
section
/-! DEFINITION. Which commands exist: the descriptor of an instruction carries the row's own opcode or a
reserved one of its class, a packet has the row's type and whole payload units, data has a length that
the operation can carry. -/

namespace Sys2Proof

open Sys2Proof.Machine

/-- Reserved opcodes of the matrix class (R135), and those below every class, which the table of R136 refuses too. -/
def matGap : List (Nat × Nat) := [(0x00, 0x0F), (0x11, 0x1F)]
/-- Reserved opcodes of the quantiser (R175). -/
def qntGap : List (Nat × Nat) := [(0x22, 0x2F)]
/-- Reserved opcodes of the vector engine (R188), those of other classes apart. -/
def vecGap : List (Nat × Nat) := [(0x44, 0x4F), (0x90, 0xFF)]
/-- Reserved opcodes of the sync class (R254). -/
def syncGap : List (Nat × Nat) := [(0x56, 0x5F)]
/-- Reserved opcodes of the transaction class (R287). -/
def txnGap : List (Nat × Nat) := [(0x65, 0x6F)]
/-- Reserved opcodes of the collective class (R366). -/
def collGap : List (Nat × Nat) := [(0x71, 0x7F)]
/-- Reserved opcodes of the DMA engine (R307). -/
def dmaGap : List (Nat × Nat) := [(0x82, 0x8F)]

/-- The descriptor carries the row's opcode, or a reserved one of its class (which is refused). -/
def opOk (gap : List (Nat × Nat)) (own : Nat) (d : Desc) : Bool :=
  fld d.w0 7 0 == own || gap.any (fun r => decide (r.1 ≤ fld d.w0 7 0 ∧ fld d.w0 7 0 ≤ r.2))

/-- A collective descriptor carries the row's OP, or a reserved one. -/
def collOk (own : Nat) (d : Desc) : Bool := fld d.w0 26 24 == own || decide (4 ≤ fld d.w0 26 24)

/-- A packet of a TYPE with between `lo` and `hi` payload units, the last of which a WR may leave short. -/
def pktOk (type lo hi : Nat) (p : Packet) : Bool :=
  fld p.w0 5 0 == type && (p.payload.length % 64 == 0 || type == 1) && decide (64 * lo < p.payload.length + 64) &&
    decide (p.payload.length ≤ 64 * hi)

end Sys2Proof
end

