-- ==== Sys2Proof/Machine/Memory.lean ====
section
/-! DEFINITION. Memory controllers and LLC slices: served reads with their ECC checks, the write-combining
buffer, memory-side arithmetic, scrubbing, retraining, retirement (R292 to R325, R472, R517). -/

namespace Sys2Proof.Machine

/-! ## What a reader sees (R263) -/

/-- The bytes that a reader sees: a member of a transaction sees the lines it has tagged. -/
def State.seen (s : State) (t : Option Nat) (a n : Nat) : List Byte :=
  if t.isNone || s.txn.tagged.all (fun l => l.owner != t) then s.bytes a n
  else
    (List.range n).map (fun i =>
      match s.txn.tagged.find? (fun l => l.owner == t && l.line == (a + i) / 64) with
      | some l => l.data.getD ((a + i) % 64) 0
      | none => s.mem.byte (a + i))

/-- A line as that reader sees it is poisoned. -/
def State.seenBad (s : State) (t : Option Nat) (line : Nat) : Bool :=
  match s.txn.tagged.find? (fun l => t.isSome && l.owner == t && l.line == line) with
  | some l => l.poison
  | none => s.lineBad line

/-! ## Retrains (R316, R317) and retirement (R318 to R320) -/

/-- A trigger sets a retrain of a pseudo-channel pending; it is merged into one that stands. -/
def State.triggerRetrain (s : State) (i c : Nat) : State :=
  let k := s.stack i
  if k.pend.contains c || k.hold == some c || k.fenced.contains c || bitAt (s.reg (pMEM i) 0x158) c then s
  else
    let now := !(s.fixedRun && s.job == 2)
    let s := s.setStack i { k with
      pend := insSet k.pend c
      go := if now then insSet k.go c else k.go }
    let s := s.retrainRegs i
    if s.live then s.startHold i else s

/-- A pseudo-channel of the die is retired or being retired. -/
def State.dieRetired (s : State) (die : Nat) : Bool :=
  (s.retiredOn die).isSome || (rangeFrom (5 * die) 5).any (fun i => (s.stack i).retiring.isSome)

/-- R320 allows a retirement on a stack's die. -/
def State.mayRetire (s : State) (i : Nat) : Bool := s.boot.cfg.reserve && !s.dieRetired (i / 5)

/-- The retirement of a pseudo-channel starts (R319). -/
def State.beginRetire (s : State) (i c : Nat) : State :=
  let s := s.setStack i { s.stack i with
    retiring := some c
    copied := 0 }
  (s.setRf (pMEM i) 0x150 36 32 c).setRf (pMEM i) 0x150 1 0 1

/-- An automatic trigger of retirement (R319, R320). -/
def State.autoRetire (s : State) (i c : Nat) : State :=
  if s.mayRetire i then s.beginRetire i c else s.raise (pMEM i) 4

/-! ## Requests at a controller (R298 to R301, R316, R321) -/

/-- An address of a pseudo-channel that is in hold: a request to it waits (R316 step 3). -/
def State.inHold (s : State) (a : Nat) : Bool :=
  decide (a < s.hbmEnd) && (let m := s.physMap a; (s.stack m.1).hold == some m.2.1)

/-- The first address of a line of a byte range that is in hold, if there is one. -/
def State.heldIn (s : State) (a n : Nat) : Option Nat := ((memLines a n).map (fun l => l * 64)).find? s.inHold

/-- Reads that wait at a controller. -/
def Stack.reads (k : Stack) : Nat := (k.waiting.filter (fun r => r.cls.isSome)).length

/-- Writes and atomics that wait at a controller. -/
def Stack.writes (k : Stack) : Nat := (k.waiting.filter (fun r => r.cls.isNone)).length

/-- MEM.INFLIGHT follows the waiting requests and one of `now` more reads and writes in service: current and most
(R299, R321). -/
def State.inflightRegs (s : State) (i reads writes : Nat) : State :=
  let k := s.stack i
  let was := s.reg (pMEM i) 0x118
  let v : Nat := max (fld was 59 48) (k.writes + writes) * 2 ^ 48 + max (fld was 43 32) (k.reads + reads) * 2 ^ 32 +
    k.writes * 2 ^ 16 + k.reads
  s.setReg (pMEM i) 0x118 (BitVec.ofNat 64 v)

/-- Requests that the tracker of a die holds (R299). -/
def State.tracked (s : State) (die : Nat) : Nat :=
  (s.hbm.stk.map (fun e => (e.2.waiting.filter (fun r => r.die == die)).length)).sum

/-- A request joins the queue of the controller of its line, unless it meets a limit of R299 and waits at its source. -/
def State.holdReq (s : State) (r : MemReq) : Option State :=
  let i := (s.physMap (r.line * 64)).1
  let k := s.stack i
  if 16384 ≤ s.tracked r.die ∨ (if r.cls.isSome then 2048 ≤ k.reads else 1024 ≤ k.writes) then none
  else some ((s.setStack i { k with waiting := k.waiting ++ [r] }).inflightRegs i 0 0)

/-- Classes 1 to 3 in their fixed interleaved order: `n` places in proportion to the weights, each to the class that is
furthest behind its share, the lower class first. -/
def mixClasses (w1 w2 w3 n g1 g2 g3 : Nat) : List Nat :=
  match n with
  | 0 => []
  | k + 1 =>
    if (g1 + 1) * w2 ≤ (g2 + 1) * w1 ∧ (g1 + 1) * w3 ≤ (g3 + 1) * w1 then 1 :: mixClasses w1 w2 w3 k (g1 + 1) g2 g3
    else if (g2 + 1) * w3 ≤ (g3 + 1) * w2 then 2 :: mixClasses w1 w2 w3 k g1 (g2 + 1) g3
    else 3 :: mixClasses w1 w2 w3 k g1 g2 (g3 + 1)

/-- The frame of 16 places of a controller (R300, R301): CAP0 of class 0, then classes 1 to 3. -/
def State.frame (s : State) (i : Nat) : List Nat :=
  let p := s.reg (pMEM i) 0x110
  let cap := fld p 3 0
  List.replicate cap 0 ++ mixClasses (fld p 11 8) (fld p 19 16) (fld p 27 24) (16 - cap) 0 0 0

/-- The class that reads at a place of the frame, of those that have a read waiting, and the place after it: in
fixed-order mode places of other classes are skipped, in free mode a class without a read gives its place to the next
(R300, R301). -/
def State.pickClass (s : State) (i : Nat) (has : Nat → Bool) : Option (Nat × Nat) :=
  let f := s.frame i
  let at_ := (s.stack i).slot
  if s.fixedOrder then
    (List.range 16).findSome? (fun d =>
      let p := (at_ + d) % 16
      let c := f.getD p 0
      if has c then some (c, (p + 1) % 16) else none)
  else
    let c := f.getD at_ 0
    (([0, 1, 2, 3].map (fun d => (c + d) % 4)).find? has).map (fun c => (c, (at_ + 1) % 16))

/-- A read of a class takes its place in the frame of a controller. -/
def State.takePlace (s : State) (i c : Nat) : State :=
  match s.pickClass i (fun d => d == c) with
  | none => s
  | some (_, p) => s.setStack i { s.stack i with slot := p }

/-- A request of the queue that no earlier one to its line holds back (R298). -/
def freeReqs (l : List MemReq) : List MemReq :=
  (l.foldl (fun (acc : List MemReq × List Nat) (r : MemReq) =>
    (if acc.2.contains r.line then acc.1 else acc.1 ++ [r], r.line :: acc.2)) ([], [])).1

/-- The waiting request that a controller serves next: a write or an atomic when it is the oldest, else the oldest read
of the class whose place it is. -/
def State.nextHeld (s : State) (i : Nat) : Option (MemReq × Nat) :=
  let k := s.stack i
  match k.waiting with
  | [] => none
  | r :: _ =>
    if r.cls.isNone then some (r, k.slot)
    else
      let l := freeReqs k.waiting
      (s.pickClass i (fun c => l.any (fun q => q.cls == some c))).bind (fun p =>
        (l.find? (fun q => q.cls == some p.1)).map (fun q => (q, p.2)))

/-! ## ECC (R313 to R315) -/

/-- MEM.ERR or LLC.ERR captures an error of a kind when the event bit of the kind read 0 before. -/
def State.captureErr (s : State) (page off kind : Nat) (v : Nat) : State :=
  if bitAt (s.reg page 0x030) kind then s
  else s.setReg page off (BitVec.ofNat 64 (2 ^ 63 + kind * 2 ^ 61 + v))

/-- A corrected error of a word of a stack. -/
def State.stackCorrected (s : State) (i c idx word : Nat) : State :=
  let s := s.addReg (pMEM i) 0x120 1
  let s := (s.captureErr (pMEM i) 0x130 0 (idx * 2 ^ 32 + c * 2 ^ 24 + word * 2 ^ 8)).raise (pMEM i) 0
  let k := s.stack i
  let all := Tab.get k.ce 0 c + 1
  let since := Tab.get k.ceRetrain 0 c + 1
  let s := s.setStack i { k with
    ce := Tab.set k.ce 0 c all
    ceRetrain := Tab.set k.ceRetrain 0 c since }
  let retrain := s.rf (pMEM i) 0x100 15 10
  let retire := s.rf (pMEM i) 0x100 31 16
  let s := if retrain ≠ 0 ∧ 16 * retrain ≤ since then s.triggerRetrain i c else s
  if retire ≠ 0 ∧ retire = all then s.autoRetire i c else s

/-- An uncorrectable error of a word of a stack: its line, when an address reaches it, is poisoned. -/
def State.stackUncorrectable (s : State) (i c idx word : Nat) (line : Option Nat) : State :=
  let s := (match line with
    | none => s
    | some l => { s with mem := s.mem.setPoison l true })
  let s := s.addReg (pMEM i) 0x128 1
  ((s.captureErr (pMEM i) 0x130 1 (idx * 2 ^ 32 + c * 2 ^ 24 + word * 2 ^ 8)).raise (pMEM i) 1).contained

/-- The outcome of one check at a stack. -/
def State.stackEcc (s : State) (i c idx word : Nat) (line : Option Nat) (e : Ecc) : State :=
  match e with
  | .clean => s
  | .single => s.stackCorrected i c idx word
  | .uncorrectable => s.stackUncorrectable i c idx word line

/-- The outcome of one check at a slice: byte offset of the word within the slice. -/
def State.sliceEcc (s : State) (sl off line : Nat) (e : Ecc) : State :=
  let v := off / 8 % 2 ^ 21 * 8
  match e with
  | .clean => s
  | .single => ((s.addReg (pLLC sl) 0x120 1).captureErr (pLLC sl) 0x130 0 v).raise (pLLC sl) 0
  | .uncorrectable =>
    let s := { s with mem := s.mem.setPoison line true }
    (((s.addReg (pLLC sl) 0x128 1).captureErr (pLLC sl) 0x130 1 v).raise (pLLC sl) 1).contained

/-- The outcome of a check with the injections of points 1 and 2 of a page for one word read. -/
def State.injEcc (s : State) (page : Nat) (e : Ecc) : Ecc × State :=
  let a := s.inject page 1
  let b := a.2.inject page 2
  (if b.1 then .uncorrectable else if a.1 && e == .clean then .single else e, b.2)

/-- One 64-bit word is read from its stack. -/
def State.stackWord (s : State) (a : Nat) (e : Ecc) : State :=
  let m := s.physMap a
  let r := s.injEcc (pMEM m.1) e
  r.2.stackEcc m.1 m.2.1 m.2.2 (a % 256 / 8) (some (a / 64)) r.1

/-- One 64-bit word is read from the SRAM of a slice. -/
def State.sliceWord (s : State) (sl a : Nat) (e : Ecc) : State :=
  let r := s.injEcc (pLLC sl) e
  r.2.sliceEcc sl (a % 2 ^ 24) (a / 64) r.1

/-- A slice is in cache mode. -/
def State.cacheMode (s : State) (sl : Nat) : Bool := s.rf (pLLC sl) 0x100 0 0 == 1

/-- Addresses of the 64-bit words that a byte range covers. -/
def wordsOf (a len : Nat) : List Nat :=
  if len = 0 then [] else (rangeFrom (a / 8) ((a + len - 1) / 8 - a / 8 + 1)).map (fun w => w * 8)

/-- The ECC checks of a read of HBM or LLC scratch (R313); the outcome `e` is that of the first word. A read that its
controller serves takes a place of its class in the frame (R300). A fenced pseudo-channel is not read (R316). -/
def State.eccRead (s : State) (a len : Nat) (cls : Option Nat) (hit : Bool) (e : Ecc) : State :=
  let first := a / 8 * 8
  let outcome (w : Nat) : Ecc := if w = first then e else .clean
  match s.place a with
  | .scratch sl => (wordsOf a len).foldl (fun (s : State) (w : Nat) => s.sliceWord sl w (outcome w)) s
  | .hbm =>
    let sl := s.homeSlice a
    if s.cacheMode sl && hit then
      (wordsOf a len).foldl (fun (s : State) (w : Nat) => s.sliceWord sl w (outcome w)) (s.addReg (pLLC sl) 0x108 1)
    else
      let s := if s.cacheMode sl then s.addReg (pLLC sl) 0x110 1 else s
      let i := (s.physMap a).1
      let s := (match cls with
        | none => s.inflightRegs i 0 1
        | some c => (s.inflightRegs i 1 0).takePlace i c)
      if s.pchFenced a then s else (wordsOf a len).foldl (fun (s : State) (w : Nat) => s.stackWord w (outcome w)) s
  | _ => s

/-- A read of a class whose cache hit no command names: residency is a free value, for it affects timing only (R296);
a memory-side operation has no class.  The flag says that a slice served it. -/
def State.readReq (s : State) (a len : Nat) (cls : Option Nat) : Bool × State :=
  match s.place a with
  | .scratch _ => (true, s.eccRead a len cls true .clean)
  | .hbm =>
    if s.cacheMode (s.homeSlice a) then
      let d := s.draw
      (Config.freeBool d.1, d.2.eccRead a len cls (Config.freeBool d.1) .clean)
    else (false, s.eccRead a len cls false .clean)
  | _ => (false, s)

/-- A read taken line by line up to its first poisoned line, a line that the read itself finds uncorrectable among
them (R313, R314, R391): how many bytes came before it, and the state. -/
def State.readClean (s : State) (a n cls : Nat) : Nat × State :=
  let r := (memLines a n).foldl (fun (acc : Option Nat × State) (l : Nat) =>
    match acc.1 with
    | some _ => acc
    | none =>
      let lo := max a (l * 64)
      let t := acc.2.readReq lo (min (a + n) (l * 64 + 64) - lo) (some cls)
      (if t.2.lineBad l then some (lo - a) else none, t.2)) (none, s)
  (r.1.getD n, r.2)

/-! ## Write combining (R302) -/

/-- The write-combining buffer of a stack holds this many sectors of 32 bytes. -/
def wcbSectors : Nat := 4096

/-- The 64-bit words of a sector that have been written in part, so that the merge reads them. -/
def partWords (w : Sector) : List Nat :=
  (List.range 4).filter (fun k =>
    let n := (w.mask.filter (fun o => o / 8 == k)).length
    n != 0 && n != 8)

/-- A sector leaves the write-combining buffer: the words written in part are read and merged. -/
def State.sectorLeaves (s : State) (i : Nat) (w : Sector) (e : Ecc) : State :=
  let k := s.stack i
  let s := s.setStack i { k with wcb := k.wcb.filter (fun v => v.sector != w.sector) }
  let ws := partWords w
  ws.foldl (fun (s : State) (o : Nat) =>
    s.stackWord (w.sector * 32 + 8 * o) (if some o = ws.head? then e else .clean)) s

/-- A write reaches the write-combining buffer: a full sector leaves it, a partial one enters or merges; when
there is no room the oldest sector leaves first. The sector that the bytes complete leaves at once. -/
def State.wcbPut (s : State) (ctxs : List Nat) (sec : Nat) (offs : List Nat) : State :=
  let i := (s.physMap (sec * 32)).1
  let s := s.inflightRegs i 0 1
  let full := (s.stack i).wcb.all (fun w => w.sector != sec) && decide (wcbSectors ≤ (s.stack i).wcb.length) && offs.length != 32
  let s := if full then (s.stack i).wcb.head?.toList.foldl (fun (s : State) (w : Sector) => s.sectorLeaves i w .clean) s else s
  let k := s.stack i
  let old := k.wcb.find? (fun w => w.sector == sec)
  let w : Sector := (match old with
    | none => { sector := sec, mask := [], ctxs := [] }
    | some w => w)
  let w : Sector := { w with
    mask := offs.foldl insSet w.mask
    ctxs := ctxs.foldl insSet w.ctxs }
  let rest := k.wcb.filter (fun v => v.sector != sec)
  if w.mask.length = 32 then (if old.isNone then s else s.setStack i { k with wcb := rest })
  else if old.isSome then
    s.setStack i { k with wcb := k.wcb.map (fun v => if v.sector = sec then w else v) }
  else
    s.setStack i { k with wcb := rest ++ [w] }

/-- A plain write to HBM through its controller; while the home slice is in cache mode it stays in the slice. -/
def State.hbmWrite (s : State) (ctxs : List Nat) (a : Nat) (bs : List Byte) : State :=
  let s := s.writeLocal a bs
  if bs = [] then s
  else
    (rangeFrom (a / 32) ((a + bs.length - 1) / 32 - a / 32 + 1)).foldl (fun (s : State) (sec : Nat) =>
      if s.cacheMode (s.homeSlice (sec * 32)) || s.pchFenced (sec * 32) then s
      else
        let lo := max a (sec * 32)
        let hi := min (a + bs.length) (sec * 32 + 32)
        s.wcbPut ctxs sec (rangeFrom (lo % 32) (hi - lo))) s

/-- A plain write to HBM, LLC scratch or a core store as its unit takes it; `ctxs` are the contexts it counts
for at a fence. -/
def State.plainWrite (s : State) (ctxs : List Nat) (a : Nat) (bs : List Byte) : State :=
  match s.place a with
  | .hbm => s.hbmWrite ctxs a bs
  | .store core off => s.writeStore core off bs
  | _ => s.writeLocal a bs

/-- A context whose oldest sync or transaction instruction has a FENCE that names DMA. -/
def State.fenceWaits (s : State) (c : Nat) : Bool :=
  match (s.ctx (c / 2) (c % 2)).head 4 with
  | none => false
  | some i => bitAt i.desc.w0 35

/-- The sector that leaves for a reason: the oldest one that the reason concerns. -/
def State.leaving (s : State) (i : Nat) (why : LeaveWhy) : Option Sector :=
  let k := s.stack i
  match why with
  | .age => if s.live then k.wcb.head? else none
  | .room => if s.live && decide (wcbSectors ≤ k.wcb.length) then k.wcb.head? else none
  | .hold => k.wcb.find? (fun w => k.hold == some (s.physMap (w.sector * 32)).2.1)
  | .selfRefresh => if s.live then none else k.wcb.head?
  | .fence => if s.live then k.wcb.find? (fun w => w.ctxs.any s.fenceWaits) else none

/-- WCB_SECTOR_LEAVE (R302). -/
def execWcbSectorLeave (stack : StackId) (why : LeaveWhy) (ecc : Ecc) (s : State) : Res :=
  match s.leaving stack.val why with
  | none => .fault .notEnabled
  | some w => (s.sectorLeaves stack.val w ecc).advance

/-! ## Memory-side arithmetic (R303 to R306) -/

/-- Width of an atomic. -/
def aopWidth (op : Nat) : Nat := if op = 1 ∨ op = 3 ∨ op = 9 ∨ op = 10 then 4 else 8

/-- The new word of an atomic, with AOVF and ASAT. -/
def aopWord (op : Nat) (old x : Nat) : Nat × Bool × Bool :=
  let a : Word := BitVec.ofNat 64 old
  let b : Word := BitVec.ofNat 64 x
  let f : F32 := BitVec.ofNat 32 old
  let g : F32 := BitVec.ofNat 32 x
  match op with
  | 1 => ((old + x) % 2 ^ 32, false, false)
  | 2 => ((old + x) % 2 ^ 64, false, false)
  | 3 => let r := faddTz (canon f) (canon g); (r.1.toNat, r.2.contains 0, false)
  | 4 => let r := a64Add a b; (r.1.toNat, false, r.2)
  | 5 => (min old x, false, false)
  | 6 => (max old x, false, false)
  | 7 => ((if a.toInt ≤ b.toInt then old else x), false, false)
  | 8 => ((if a.toInt ≤ b.toInt then x else old), false, false)
  | 9 => ((fminF f g).toNat, false, false)
  | 10 => ((fmaxF f g).toNat, false, false)
  | _ => (old, false, false)

/-- The adder of an address: its number and its page. -/
def State.adderOf (s : State) (a : Nat) : Nat × Nat :=
  match s.place a with
  | .scratch sl => (20 + sl, pLLC sl)
  | _ =>
    let sl := s.homeSlice a
    if s.cacheMode sl then (20 + sl, pLLC sl) else ((s.physMap a).1, pMEM (s.physMap a).1)

/-- Event bits of an adder: ASAT, AOVF, ROB_FULL. -/
def aopBits (adder : Nat) : Nat × Nat × Nat := if adder < 20 then (6, 7, 8) else (2, 3, 4)

/-- MEM.AOP or LLC.AOP follows the two tables. -/
def State.aopReg (s : State) (adder page : Nat) : State :=
  let d := s.adder adder
  s.setReg page (if adder < 20 then 0x168 else 0x138) (BitVec.ofNat 64 (d.rob.length + 256 * d.locs.length))

/-- A DMA instruction in progress, changed. -/
def State.mapJob (s : State) (n x seq : Nat) (f : DmaJob → DmaJob) : State :=
  let c := s.core n
  s.setCore n { c with dma := c.dma.map (fun j => if j.ctx = x ∧ j.ins.seq = seq then f j else j) }

/-- Who asked for an atomic is answered when it has been applied: the old word goes to RET with its poison, or
an ARESP or ACK leaves for the asking node (R309, R311, R333). -/
def State.answer (s : State) (who : Asker) (old : Nat) (bad : Bool) : State :=
  match who with
  | .none => s
  | .out a w => s.emit (.memData a (natLe w old) bad)
  | .dma n x seq ret =>
    let s := s.mapJob n x seq (fun j => { j with open_ := j.open_ - 1 })
    (match ret with
    | .none => s
    | .some off =>
      let s := s.writeStore n off (natLe 8 old)
      if bad then { s with mem := s.mem.setPoison (storeAddr n off / 64) true } else s)
  | .remote node tag addr die fetch =>
    if fetch then
      s.sendPacket die (s.mkPacket node 0x0A 0 tag addr (if bad then 2 ^ 22 else 0) 0 (natLe 64 old))
    else s.sendPacket die (s.mkPacket node 0x08 0 tag addr 0 0 [])

/-- An atomic is applied: read, combined, written back, with no other request between. -/
def State.applyAop (s : State) (op a x : Nat) (who : Asker) : State :=
  let w := aopWidth op
  let u := s.adderOf a
  let s := (s.readReq a w none).2
  let old := s.memNat a w
  let bad := s.lineBad (a / 64)
  let r := aopWord op old (x % 2 ^ (8 * w))
  let s := s.writeLocal a (natLe w r.1)
  let s := s.raiseIf r.2.1 u.2 (aopBits u.1).2.1
  let s := s.raiseIf r.2.2 u.2 (aopBits u.1).1
  s.answer who old bad

/-- The next contributions of a location that wait in the reorder buffer are applied in order. -/
def State.drainRob (s : State) (u a n next : Nat) : Nat × State :=
  match n with
  | 0 => (next, s)
  | k + 1 =>
    let d := s.adder u
    match d.rob.find? (fun c => c.addr == a && c.ord == next) with
    | none => (next, s)
    | some c =>
      let s := s.setAdder u { d with rob := d.rob.filter (fun e => !(e.addr == a && e.ord == next)) }
      (s.applyAop 3 a c.x c.who).drainRob u a k (next + 1)

/-- A tagged FADD reaches its adder (R305): a code, and the state. -/
def State.arriveTagged (s : State) (a x ord count : Nat) (who : Asker) : Nat × State :=
  let u := s.adderOf a
  let d := s.adder u.1
  let full (s : State) : Nat × State := (cCAPACITY, s.raise u.2 (aopBits u.1).2.2)
  if count ≤ ord then (cRANGE, s)
  else
    let found := d.locs.find? (fun l => l.addr == a)
    if found.isNone && decide (64 ≤ d.locs.length) then full s
    else
      let loc := found.getD { addr := a, count := count, next := 0 }
      let others := d.locs.filter (fun l => l.addr != a)
      if loc.count ≠ count then (cCONFLICT, s)
      else if ord < loc.next ∨ d.rob.any (fun c => c.addr == a && c.ord == ord) then (cCONFLICT, s)
      else if ord ≠ loc.next then
        if 64 ≤ d.rob.length then full s
        else
          (cOK, (s.setAdder u.1 {
            locs := others ++ [loc]
            rob := d.rob ++ [{ addr := a, ord := ord, x := x, who := who }] }).aopReg u.1 u.2)
      else
        let s := s.applyAop 3 a x who
        let r := s.drainRob u.1 a 64 (ord + 1)
        let d := r.2.adder u.1
        let others := d.locs.filter (fun l => l.addr != a)
        let locs := if r.1 = count then others else others ++ [{ addr := a, count := count, next := r.1 }]
        (cOK, (r.2.setAdder u.1 { d with locs := locs }).aopReg u.1 u.2)

/-- The scratch window of a slice does not offer an address: the slice is in cache mode, or the address lies in its
tagged store (R42, R262). -/
def State.scratchShut (s : State) (sl a : Nat) : Bool :=
  s.cacheMode sl || (bitAt (s.reg (pTXN (sl / 8)) 0x100) 0 && decide (0x800000 ≤ (a - scratchBase) % 0x1000000))

/-- The code of R42, R303 and R306 for an atomic that reaches its adder, before its tables are looked at. -/
def State.aopCode (s : State) (op a : Nat) (tagged : Bool) : Nat :=
  let there := (match s.place a with
    | .hbm => true
    | .scratch _ => true
    | _ => false)
  let shut := (match s.place a with
    | .scratch sl => s.scratchShut sl a
    | _ => false)
  if op = 0 ∨ 11 ≤ op ∨ !there then cRANGE
  else if a % aopWidth op ≠ 0 then cALIGN
  else if shut || (op == 3 && !tagged && s.fixedOrder) then cSTATE
  else cOK

/-- An atomic reaches its adder (R303 to R306): a code other than OK refuses it and changes nothing but the
event of a full table. -/
def State.atomic (s : State) (op a x : Nat) (tag : Option (Nat × Nat)) (who : Asker) : Nat × State :=
  let c := s.aopCode op a tag.isSome
  if c ≠ cOK then (c, s)
  else
    match op == 3, tag with
    | true, some t => s.arriveTagged a x t.1 t.2 who
    | _, _ => (cOK, s.applyAop op a x who)

/-! ## Scrubbing, severity, drift (R313, R517) -/

/-- The local address of a granule of a pseudo-channel as it stands, when an address reaches it (R319). -/
def State.granuleBase (s : State) (i c g : Nat) : Option Nat :=
  if g < s.granules then (if s.moved i c g then none else some (s.granuleAddr i c g))
  else
    match s.retireeOn (i / 5) with
    | none => none
    | some p =>
      let here := 32 * i + c
      let k := here - 160 * (i / 5) - (if p < here then 1 else 0)
      let idx := (g - 9363456) * 159 + k
      if here = p ∨ 9363456 ≤ idx ∨ !s.moved (p / 32) (p % 32) idx then none else some (s.granuleAddr (p / 32) (p % 32) idx)

/-- The patrol read of a granule: its 32 words are checked in order; an outcome that is not given is clean (R313). -/
def State.scrubGranule (s : State) (i c g : Nat) (eccs : List (Fin 32 × Ecc)) : State :=
  let base := s.granuleBase i c g
  (List.range 32).foldl (fun (s : State) (w : Nat) =>
    let e := ((eccs.find? (fun p => p.1.val == w)).map (fun p => p.2)).getD .clean
    let r := s.injEcc (pMEM i) e
    r.2.stackEcc i c g w (base.map (fun b => b / 64 + w / 8)) r.1) s

/-- SCRUB_READ (R313). -/
def execScrubRead (stack : StackId) (pch : PchId) (granule : Fin 9437184) (eccs : List (Fin 32 × Ecc)) (s : State) : Res :=
  let i := stack.val
  let c := pch.val
  let k := s.stack i
  happens (s.live && bitAt (s.reg (pMEM i) 0x100) 9 && k.hold != some c && !k.fenced.contains c && !bitAt (s.reg (pMEM i) 0x158) c)
    (s.scrubGranule i c granule.val eccs)

/-- SEVERITY_POLL (R313, R517). -/
def execSeverityPoll (stack : StackId) (severity : Fin 4) (pch : PchId) (s : State) : Res :=
  let i := stack.val
  let r := s.inject (pMEM i) 3
  let sev := if r.1 then 1 else severity.val
  let c := if r.1 then 0 else pch.val
  happens s.live (if sev = 0 then r.2
    else (r.2.setReg (pMEM i) 0x138 (BitVec.ofNat 64 (2 ^ 63 + c * 256 + sev))).raise (pMEM i) 5)

/-- PHY_DRIFT_EVAL (R316, R517). -/
def execPhyDriftEval (stack : StackId) (pch : PchId) (alarm : Bool) (s : State) : Res :=
  let r := s.inject (pMEM stack.val) 4
  happens s.live (if r.1 || alarm then r.2.triggerRetrain stack.val pch.val else r.2)

/-! ## Retraining holds (R316, R317) -/

/-- A write of MEM.RETRAIN_REQ. -/
def State.retrainReq (s : State) (i c : Nat) : Nat × State :=
  let k := s.stack i
  if k.pend.contains c || k.hold == some c then (cSTATE, s) else (cOK, s.triggerRetrain i c)

/-- RETRAIN_REQ (R316). -/
def execRetrainReq (stack : StackId) (pch : PchId) (src : Src) (s : State) : Res :=
  s.serveRow (pMEM stack.val) 0x148 src (s.retrainReq stack.val pch.val)

/-- Every sector of the pseudo-channel in hold has left the write-combining buffer. -/
def State.holdDrained (s : State) (i c : Nat) : Bool :=
  (s.stack i).wcb.all (fun w => (s.physMap (w.sector * 32)).2.1 != c)

/-- HOLD_MAX takes a hold of `us` microseconds. -/
def State.noteHold (s : State) (i us : Nat) : State :=
  s.setRf (pMEM i) 0x140 63 48 (max us (s.rf (pMEM i) 0x140 63 48))

/-- A pseudo-channel is fenced: lines written since an earlier fence are lost again (R316). -/
def State.fencePch (s : State) (i c : Nat) : State :=
  let lost (l : Nat) : Bool := let m := s.physMap (l * 64); m.1 == i && m.2.1 == c
  let s := (rangeFrom (i / 5 * 5) 5).foldl (fun (s : State) (j : Nat) =>
    let k := s.stack j
    if k.fresh = [] then s else s.setStack j { k with fresh := k.fresh.filter (fun l => !lost l) }) s
  let k := s.stack i
  (s.setStack i { k with fenced := insSet k.fenced c }).raise (pMEM i) 4

/-- RETRAIN_FORCED (R317). -/
def execRetrainForced (stack : StackId) (pch : PchId) (s : State) : Res :=
  let i := stack.val
  let c := pch.val
  let k := s.stack i
  let t := (s.setStack i { k with go := insSet k.go c }).raise (pMEM i) 3
  happens (s.live && k.pend.contains c && !k.go.contains c) ((t.voidSeq 34).startHold i)

/-- FENCED_RETRY (R316): every 10 ms, or at maintenance points while a run is in fixed-order mode. -/
def execFencedRetry (stack : StackId) (pch : PchId) (trained : Bool) (s : State) : Res :=
  let i := stack.val
  let c := pch.val
  let k := s.stack i
  let t := s.setStack i { k with
    go := delSet k.go c
    fenced := if trained then delSet k.fenced c else k.fenced
    stale := if trained then insSet k.stale c else k.stale
    ceRetrain := if trained then Tab.set k.ceRetrain 0 c 0 else k.ceRetrain }
  happens (s.live && k.fenced.contains c && (!(s.fixedRun && s.job == 2) || k.go.contains c)) (t.retrainRegs i)

/-- A write of MEM[0].MAINT. -/
def State.maintWrite (s : State) (open_ : Bool) : Nat × State := (cOK, if open_ then s.maintenancePoint else s)

/-- MAINT (R317). -/
def execMaint (src : Src) (s : State) : Res := s.serveRow (pMEM 0) 0x160 src (s.maintWrite true)

/-! ## Retirement (R318 to R320) -/

/-- A write of MEM.RETIRE. -/
def State.retireWrite (s : State) (i c : Nat) (go : Bool) : Nat × State :=
  if !go then (cOK, s.setRf (pMEM i) 0x150 36 32 c)
  else if bitAt (s.reg (pMEM i) 0x158) c then (cSTATE, s)
  else if !s.mayRetire i then (cCAPACITY, s)
  else (cOK, s.beginRetire i c)

/-- RETIRE (R320). -/
def execRetire (stack : StackId) (pch : PchId) (src : Src) (s : State) : Res :=
  s.serveRow (pMEM stack.val) 0x150 src (s.retireWrite stack.val pch.val true)

/-- The four lines of a granule are poisoned. -/
def State.poisonGranule (s : State) (base : Nat) : State :=
  { s with mem := (rangeFrom (base / 64) 4).foldl (fun (m : Mem) (l : Nat) => m.setPoison l true) s.mem }

/-- SELF_REFRESH_RETURN (R472). -/
def execSelfRefreshReturn (stack : StackId) (s : State) : Res :=
  let k := s.stack stack.val
  occurs (!s.live && k.awake) (s.setStack stack.val { k with awake := false })

end Sys2Proof.Machine
end

