-- ==== Sys2Proof/Machine/Txn.lean ====
section
/-! DEFINITION. The meanings of the transaction instructions, of tagged lines, of the commit window, and of the
step's verdict and log (08_training_step.md, 10_transactions.md). -/

namespace Sys2Proof.Machine

/-! ## Instructions -/

/-- A transaction instruction is decoded: TXC and TXE clear the resident bit of their status line (R275). -/
def State.issueTxn (s : State) (own : Nat) (lines : List Nat) (i : Issue) : Res :=
  wellFormed (opOk txnGap own i.desc)
    (s.issue i 4 7 0x31 (s.txnRefusal i.core.val i.ctx.val i.desc) lines)

/-- The line of STATUS_ADDR that the context's latest TXB named. -/
def State.statusLines (s : State) (n x : Nat) : List Nat :=
  match (s.ctx n x).statusAddr with
  | none => []
  | some a => [a / 64]

/-- The issue unit records STATUS_ADDR at the decode of a TXB. -/
def State.noteStatus (s : State) (n x : Nat) (d : Desc) : State :=
  s.setCtx n x { s.ctx n x with statusAddr := if (s.txnRefusal n x d).isNone then some (fld d.w2 21 0) else none }

/-- TXB (R272). -/
def execTxb (i : Issue) (s : State) : Res := (s.noteStatus i.core.val i.ctx.val i.desc).issueTxn 0x60 [] i
/-- TXO (R268). -/
def execTxo (i : Issue) (s : State) : Res := s.issueTxn 0x61 [] i
/-- TXC (R273). -/
def execTxc (i : Issue) (s : State) : Res := s.issueTxn 0x62 (s.statusLines i.core.val i.ctx.val) i
/-- TXA (R274). -/
def execTxa (i : Issue) (s : State) : Res := s.issueTxn 0x63 [] i
/-- TXE (R277). -/
def execTxe (i : Issue) (s : State) : Res := s.issueTxn 0x64 (s.statusLines i.core.val i.ctx.val) i

/-! ## Tagged lines (R260 to R265) -/

/-- Lines of a slice's tagged store (R262). -/
def taggedCapacity : Nat := 131072

/-- The tagged line at a line number. -/
def State.taggedAt (s : State) (line : Nat) : Option TLine := s.txn.tagged.find? (fun l => l.line == line)

/-- Tagged lines of a slice, and those of open transactions among them. -/
def State.taggedIn (s : State) (slice : Nat) : Nat × Nat :=
  let ls := s.txn.tagged.filter (fun l => s.homeSlice (l.line * 64) == slice)
  (ls.length, (ls.filter (fun l => l.owner.isSome)).length)

/-- A byte range meets a line of a transaction whose commit window is open: reads and writes of it wait (R273). -/
def State.closing (s : State) (a n : Nat) : Bool :=
  s.txn.tagged.any (fun l => decide (a / 64 ≤ l.line ∧ l.line * 64 < a + n) &&
    s.txn.txns.any (fun t => l.owner == some t.id && t.state == 3))

/-- A write conflicts with a line of another transaction: the writer's transaction aborts, TXN.CONFLICT
records the line (R264). -/
def State.tagConflict (s : State) (t : Txn) (n x line : Nat) : State :=
  let s := s.txnCause t.id 8 cCONFLICT 0 n x
  let s := s.setReg (pTXN t.die) 0x148 (BitVec.ofNat 64 (line * 64 + 1))
  (s.raise (pTXN t.die) 1).contained

/-- A write finds every line of its store tagged by open transactions (R265). -/
def State.tagCapacity (s : State) (t : Txn) (n x : Nat) : State :=
  ((s.txnCause t.id 7 cCAPACITY 0 n x).raise (pTXN t.die) 2).contained

/-- Bytes merged into a tagged line: a line covered in full is clean, and poisoned data bring their poison (R260,
R314). -/
def TLine.merge (l : TLine) (off : Nat) (bs : List Byte) (bad : Bool) : TLine :=
  { l with
    data := l.data.take off ++ bs ++ l.data.drop (off + bs.length)
    poison := (l.poison && decide (bs.length < 64)) || bad }

/-- The line with its data put into the tagged store. -/
def State.putTagged (s : State) (l : TLine) : State :=
  ({ s with txn := { s.txn with tagged := s.txn.tagged.filter (fun k => k.line != l.line) ++ [l] } } : State).txnRegs

/-- A line of the store takes a write of a transaction: first it is filled with the committed contents, which are read
from memory unless the write covers them or the store holds them (R260, R313). -/
def State.fillTagged (s : State) (t : Txn) (a : Nat) (bs : List Byte) (bad : Bool) : State :=
  let line := a / 64
  let s := if bs.length == 64 || (s.taggedAt line).isSome then s else (s.readReq (line * 64) 64 (some 1)).2
  let l : TLine := { line := line, owner := some t.id, data := s.bytes (line * 64) 64, poison := s.lineBad line }
  s.putTagged (l.merge (a % 64) bs bad)

/-- A tagged write inside one line by a member of an OPEN transaction (R260, R264, R265); none while it must wait for a
commit window, a write-back or a hold. -/
def State.tagLine (s : State) (t : Txn) (n x a : Nat) (bs : List Byte) (bad : Bool) : Option State :=
  let line := a / 64
  let slice := s.homeSlice a
  let inj := s.inject (pTXN (slice / 8)) 1
  let s := inj.2.tookSlot (100 + slice) (2 * n + x)
  if inj.1 then some (s.tagConflict t n x line)
  else
    match s.taggedAt line with
    | some l =>
      if l.owner = some t.id then some (s.putTagged (l.merge (a % 64) bs bad))
      else
        match l.owner with
        | none => some (s.fillTagged t a bs bad)
        | some o =>
          if (match s.findTxn o with
            | none => false
            | some u => u.state == 3) then none
          else some (s.tagConflict t n x line)
    | none =>
      let more := s.inject (pTXN (slice / 8)) 2
      let s := more.2
      let used := s.taggedIn slice
      if more.1 ∨ taggedCapacity ≤ used.2 then some (s.tagCapacity t n x)
      else if taggedCapacity ≤ used.1 ∨ (bs.length ≠ 64 ∧ s.inHold a) then none
      else some (s.fillTagged t a bs bad)

/-- A part that has reached TXC issues nothing further for its transaction until its TXC completes (R273). -/
def Txn.silent (t : Txn) (n x : Nat) : Bool :=
  match t.member n x with
  | none => false
  | some m => m.txc && !m.txcDone

/-- A write of a context that was decoded inside a transaction, line by line: none while it must wait, else a code and
the state.  A write of a transaction that is DOOMED or has ended is discarded (R274), one in APPLY is refused (R277). -/
def State.tagWrite (s : State) (id n x a : Nat) (bs : List Byte) (bad : Bool) : Option (Nat × State) :=
  (memLines a bs.length).foldl (fun (acc : Option (Nat × State)) line =>
    match acc with
    | none => none
    | some (c, s) =>
      if c ≠ cOK then some (c, s)
      else
        match s.findTxn id with
        | none => some (cOK, s)
        | some t =>
          if t.state = 5 then some (cSTATE, s)
          else if t.state = 2 ∨ t.state = 6 then some (cOK, s)
          else if t.state ≠ 1 ∨ t.silent n x then none
          else
            let lo := max a (line * 64)
            let hi := min (a + bs.length) (line * 64 + 64)
            (s.tagLine t n x lo ((bs.drop (lo - a)).take (hi - lo)) bad).map (fun s => (cOK, s))) (some (cOK, s))

/-- TAGGED_WRITE (R260, R274, R277): a refused one faults its context as a refused store does. -/
def execTaggedWrite (core : CoreId) (ctx : CtxId) (addr : BitVec 48) (data : List Byte) (s : State) : Res :=
  let a := addr.toNat
  let n := core.val
  let x := ctx.val
  wellFormed (data != [] && decide (a % 64 + data.length ≤ 64 ∧ a + data.length ≤ s.hbmEnd))
    (match (s.ctx n x).txn with
    | none => .fault .notEnabled
    | some id =>
      match s.tagWrite id n x a data false with
      | none => .fault .notEnabled
      | some (c, t) => happens s.live (if c = cOK then t else t.faultStore n x 0x21 c))

/-! ## The verdict (R215 to R222, R278) -/

/-- A write of TXN.RESOLVE: 1 commit, 2 abort. -/
def State.resolve (s : State) (v : Nat) : Nat × State :=
  if v ≠ 1 ∧ v ≠ 2 then (cRANGE, s)
  else
    match s.machineTxn with
    | none => (cSTATE, s)
    | some t =>
      if t.state ≠ 4 then (cSTATE, s)
      else (cOK, s.decideStep { flags := if v = 1 then 0 else s.ownRec.flags ||| 2, smin := s.stepNo, smax := s.stepNo }
        (v == 1) false true)

/-- RESOLVE (R278). -/
def execResolve (v : Fin 4) (src : Src) (s : State) : Res := s.serveRow (pTXN 0) 0x138 src (s.resolve v.val)

/-- VERDICT_REDUCTION_COMPLETE (R219). -/
def execVerdictReductionComplete (s : State) : Res :=
  let t := s.contribute
  happens (s.live && s.reductionDone) (t.decideStep t.carriedRec t.carriedRec.positive false false)

/-- STEP_LOG_ACK (R219); the counter does not advance while an evaluation runs (R230). -/
def execStepLogAck (s : State) : Res :=
  match s.step.ending with
  | none => .fault .notEnabled
  | some e => happens (s.live && e.logged && !s.evalActive) (s.advanceStep e)

/-- A write of CFE.STEP_END: the node's record becomes final (R222). -/
def State.stepEndWrite (s : State) (go : Bool) : Nat × State :=
  if !go then (cOK, s)
  else if s.job ≠ 2 ∨ s.machineTxn.isSome ∨ s.evalActive ∨ s.genBase = 2 ∨ s.step.stepEnd ∨ s.step.ending.isSome then (cSTATE, s)
  else (cOK, { s with step := { s.step with stepEnd := true } }.contribute)

/-- STEP_END (R222). -/
def execStepEnd (src : Src) (s : State) : Res := s.serveRow pCFE 0x188 src (s.stepEndWrite true)

/-- A write of CFE.VERDICT_SET. -/
def State.verdictSet (s : State) (bits : Nat) : State :=
  let s := if bits.testBit 0 then s.verdictBit 0 else s
  let s := if bits.testBit 1 then s.verdictBit 1 else s
  if bits.testBit 2 then s.verdictBit 2 else s

/-- VERDICT_SET (R215). -/
def execVerdictSet (bits : Fin 8) (src : Src) (s : State) : Res :=
  s.serveRow pCFE 0x1E0 src (cOK, s.verdictSet bits.val)

/-- A write of CFE.EVAL. -/
def State.evalWrite (s : State) (on : Bool) : Nat × State :=
  if on && s.machineTxn.isSome then (cSTATE, s) else (cOK, s.setReg pCFE 0x1E8 (BitVec.ofNat 64 (b2n on)))

/-- EVAL_START (R230). -/
def execEvalStart (src : Src) (s : State) : Res := s.serveRow pCFE 0x1E8 src (s.evalWrite true)

/-- EVAL_END (R230). -/
def execEvalEnd (src : Src) (s : State) : Res := s.serveRow pCFE 0x1E8 src (s.evalWrite false)

end Sys2Proof.Machine
end

