-- ==== Sys2Proof/Machine/Dma.lean ====
section
/-! DEFINITION. Writes of a context to memory (R42, R260, R266, R267, R418) and the DMA engine: DCOPY, DATOM,
their line requests, tags, multicast and completion (R307 to R314). -/

namespace Sys2Proof.Machine

/-! ## A context's accesses to memory -/

/-- A local address that wicket service does not offer (R418). -/
def State.absent (s : State) (a : Nat) : Bool :=
  if 3 ≤ s.stage then false
  else
    match s.place a with
    | .hbm => true
    | .scratch sl => sl != 0 || decide (s.stage < 2)
    | .store n _ => decide (s.clusterCores 0 0 ≤ n) || decide (s.stage < 2)
    | _ => false

/-- The refusal of an access of a context to memory by its place alone (R42, R262, R418). -/
def State.placeCode (s : State) (a : Nat) : Nat :=
  match s.place a with
  | .reserved => cRANGE
  | .register _ _ => cRANGE
  | .scratch sl =>
    if s.absent a then cDEPENDENCY else if s.scratchShut sl a then cSTATE else cOK
  | _ => if s.absent a then cDEPENDENCY else cOK

/-- Two byte ranges meet. -/
def meets (a n b m : Nat) : Bool := decide (a < b + m ∧ b < a + n)

/-- The copy of a versioned region that a byte range touches: region and copy. -/
def State.copyAt (s : State) (a n : Nat) : Option (Nat × Nat) :=
  if !s.enabled (pTXN 0) then none
  else
    (List.range s.regionCount).findSome? (fun r =>
      let e := s.entry r
      ((List.range e.copies).find? (fun i => meets a n (e.copy i) e.len)).map (fun i => (r, i)))

/-- A range touches the region table. -/
def State.inTable (s : State) (a n : Nat) : Bool := s.enabled (pTXN 0) && meets a n (s.entryAddr 0) (64 * s.regionCount)

/-- The lines that a range of memory covers become poisoned. -/
def State.poisonRange (s : State) (a len : Nat) : State :=
  { s with mem := (linesOf a len).foldl (fun (m : Mem) (l : Nat) => m.setPoison l true) s.mem }

/-- The code of a write to local HBM as the region table judges it: LOCKED for the table itself and for a copy that is
not the write copy, STATE for a write copy whose region the writer's transaction has not opened (R266, R267).  `id` is the
transaction that was open when the writing instruction was decoded. -/
def State.regionCode (s : State) (id : Option Nat) (a n : Nat) : Nat :=
  if s.hbmEnd ≤ a then cOK
  else if s.inTable a n then cLOCKED
  else
    match s.copyAt a n with
    | none => cOK
    | some (r, i) =>
      if i ≠ (s.entry r).writeCopy then cLOCKED
      else if (id.bind s.findTxn).any (fun t => t.regions.contains r) then cOK
      else cSTATE

/-- A context writes HBM: none while the write must wait, else a code and the state (R260, R264 to R267, R273, R274,
R277); `bad` data are poisoned (R314). -/
def State.ctxHbm (s : State) (n x : Nat) (id : Option Nat) (a : Nat) (bs : List Byte) (bad : Bool) : Option (Nat × State) :=
  let c := s.regionCode id a bs.length
  if (s.heldIn a bs.length).isSome || s.closing a bs.length then none
  else if c ≠ cOK then some (c, s)
  else
    match id, s.copyAt a bs.length with
    | some i, none => s.tagWrite i n x a bs bad
    | _, _ =>
      let t := s.hbmWrite [2 * n + x] a bs
      some (cOK, if bad then t.poisonRange a bs.length else t)

/-- A context writes memory: none while the write must wait, else a code and the state. -/
def State.ctxWrite (s : State) (n x : Nat) (id : Option Nat) (a : Nat) (bs : List Byte) (bad : Bool) : Option (Nat × State) :=
  let c := s.placeCode a
  if c ≠ cOK then some (c, s)
  else
    match s.place a with
    | .store core off =>
      if (linesOf off bs.length).any (fun l => s.pinned core l) then none
      else
        let t := s.writeStore core off bs
        some (cOK, if bad then t.poisonRange a bs.length else t)
    | .hbm => s.ctxHbm n x id a bs bad
    | _ =>
      let t := s.writeLocal a bs
      some (cOK, if bad then t.poisonRange a bs.length else t)

/-! ## The DMA descriptor (R307 to R312) -/

/-- Global address fields of a row of a DCOPY. -/
def State.dmaGood (s : State) (w : Word) (atomDst : Bool) : Bool :=
  match s.place (fld w 47 0) with
  | .hbm => true
  | .scratch _ => true
  | .store _ _ => !atomDst
  | _ => false

/-- The first and the last address of a copy are in one kind of memory, and an operand in the context's own
core store stays in its region (R127). -/
def State.dmaExtent (s : State) (n x : Nat) (w : Word) (total : Nat) : Bool :=
  let a := fld w 47 0
  let g := s.gaddr w
  match s.place a, s.place (a + total - 1) with
  | .hbm, .hbm => true
  | .scratch _, .scratch _ => true
  | .store c o, .store d _ => c == d && (g.node != s.nodeId || c != n || s.inRegion n x o total)
  | _, _ => false

/-- Rows of a DCOPY. -/
def dmaRows (d : Desc) : Nat := fld d.w3 55 32 + 1
/-- ROW_BYTES. -/
def dmaRowBytes (d : Desc) : Nat := fld d.w3 31 0
/-- AOP. -/
def dmaAop (d : Desc) : Nat := fld d.w0 55 52
/-- TAG. -/
def dmaTag (d : Desc) : Nat := fld d.w0 49 48
/-- MCAST. -/
def dmaMcast (d : Desc) : Bool := bitAt d.w0 30

/-- The coordinate one hop from another on an axis; none at the end of an open line of the machine. -/
def State.nextCoord (s : State) (axis c : Nat) (neg : Bool) : Option Nat :=
  let e := s.mExt axis
  if neg then (if 0 < c then some (c - 1) else if s.mWrap axis then some (e - 1) else none)
  else (if c + 1 < e then some (c + 1) else if s.mWrap axis then some 0 else none)

/-- A multicast goes to the first node it reaches (R308, R344). -/
def State.mcastFirst (s : State) (axis : Nat) (neg : Bool) (dst : Nat) : Bool :=
  match s.nextCoord axis (coordOf s.nodeId axis) neg with
  | none => false
  | some c => dst == withCoord s.nodeId axis c

/-- The hops of a multicast stay inside the slice (R344). -/
def State.mcastHops (s : State) (axis : Nat) (neg : Bool) (hops : Nat) : Bool :=
  let p := s.slicePos axis (coordOf s.nodeId axis)
  let e := s.sExt axis
  if s.isRing axis then decide (hops ≤ e - 1)
  else if neg then decide (hops ≤ p) else decide (p + hops < e)

/-- A tensor position of TAG 1: the offset within the plane, from a source address. -/
def tagOff (d : Desc) (wide : Bool) (a : Nat) : Nat :=
  let off := a - fld d.w5 47 0
  if wide then off % fld d.w7 47 0 else off

/-- A row that breaks R310: outside one tensor row of a plane the code has, or not between block boundaries. -/
def tagRowCode (d : Desc) (f : Fmt) (a : Nat) : Nat :=
  let wide := f.code.wide
  let pitch := fld d.w6 63 32
  let base := fld d.w5 47 0
  if pitch = 0 ∨ a < base ∨ (wide ∧ f.code.planes * fld d.w7 47 0 ≤ a - base) then cRANGE
  else
    let o := tagOff d wide a
    let bits := f.code.bits
    let c0 := o % pitch * 8 / bits
    let c1 := (o % pitch + dmaRowBytes d) * 8 / bits
    let share := f.col || f.affine
    let off := !share && (c0 % f.b != 0 || c1 % f.b != 0)
    if pitch < o % pitch + dmaRowBytes d ∨ fld d.w6 31 0 < c1 then cRANGE
    else if off then cALIGN
    else cOK

/-- The code of the first row that breaks R310, lowest code first; OK when none does. -/
def tagRows (d : Desc) (f : Fmt) : Nat :=
  let codes := (List.range (dmaRows d)).map (fun r => tagRowCode d f (fld d.w1 47 0 + r * fld d.w4 31 0))
  if codes.contains cRANGE then cRANGE else if codes.contains cALIGN then cALIGN else cOK

/-- Conditions on word 0. -/
def State.dmaChecks0 (s : State) (n x : Nat) (d : Desc) : List Check :=
  let atom := opOf d == 0x81
  let mc := dmaMcast d
  let axis := fld d.w0 29 28
  let tag := dmaTag d
  let aop := dmaAop d
  let ordt := bitAt d.w0 50
  let hops := fld d.w0 35 31
  [ (0, 0, cRANGE, opOf d != 0x80 && !atom), resv d 0 26 8,
    (0, 27, cRANGE, atom && bitAt d.w0 27), (0, 28, cRANGE, atom && axis != 0),
    (0, 28, cRANGE, axis == 3),
    (0, 30, cRANGE, (mc && atom) || (!mc && (axis != 0 || bitAt d.w0 27))),
    (0, 31, cRANGE, (mc && hops == 0) || (!mc && hops != 0)),
    (0, 31, cROUTE, mc && decide (axis < 3) && !s.mcastHops axis (bitAt d.w0 27) hops),
    resv d 0 39 36,
    (0, 41, (s.sigRefusal n x d).getD 0, (s.sigRefusal n x d).isSome),
    (0, 48, cRANGE, tag != 0 && (atom || mc)),
    (0, 51, cRANGE, bitAt d.w0 51 && !atom),
    (0, 52, cRANGE, decide (11 ≤ aop) || (atom && aop == 0) || (aop != 0 && (mc || tag != 0)) || (ordt && aop != 3)),
    (0, 52, cSTATE, aop == 3 && !ordt && s.fixedOrder), resv d 0 63 58 ]

/-- Conditions on SRC and DST. -/
def State.dmaChecks12 (s : State) (n x : Nat) (d : Desc) : List Check :=
  let atom := opOf d == 0x81
  let copy := opOf d == 0x80
  let aop := dmaAop d
  let w := aopWidth aop
  let src := s.gaddr d.w1
  let dst := s.gaddr d.w2
  let away := dst.node != s.nodeId
  let open_ := (s.ctx n x).txn.isSome
  let own := !away && (match s.place dst.loc with
    | .store c _ => c == n
    | _ => false)
  [ (1, 0, cRANGE, copy && (gBad d.w1 || !s.dmaGood d.w1 false)),
    (1, 0, cALIGN, copy && aop != 0 && src.loc % w != 0),
    (1, 0, cDEPENDENCY, copy && (s.absent src.loc || (src.node != s.nodeId && decide (s.stage < 3)))),
    (1, 0, cROUTE, copy && !s.inSlice src.node && src.node != s.nodeId),
    (2, 0, cRANGE, gBad d.w2 || !s.dmaGood d.w2 (aop != 0) || (dmaTag d != 0 && !own)),
    (2, 0, cALIGN, aop != 0 && dst.loc % w != 0),
    (2, 0, cSTATE, copy && aop == 0 && away && open_ && decide (dst.loc < s.hbmEnd)),
    (2, 0, cDEPENDENCY, s.absent dst.loc || (away && decide (s.stage < 3))),
    (2, 0, cROUTE, (away && !s.inSlice dst.node) ||
      (dmaMcast d && !atom && decide (fld d.w0 29 28 < 3) && !s.mcastFirst (fld d.w0 29 28) (bitAt d.w0 27) dst.node)) ]

/-- Conditions on word 3 and 4 of a DCOPY. -/
def State.dmaChecks34 (s : State) (n x : Nat) (d : Desc) : List Check :=
  let aop := dmaAop d
  let w := aopWidth aop
  let rb := dmaRowBytes d
  let rows := dmaRows d
  let sp := fld d.w4 31 0
  let dp := fld d.w4 63 32
  [ resv d 3 63 56,
    (3, 0, cRANGE, rb == 0 || decide (2 ^ 31 < rb)), (3, 0, cALIGN, rb % 8 != 0 || (aop != 0 && rb % w != 0)),
    (4, 0, cRANGE, (decide (1 < rows) && decide (sp < rb)) || !s.dmaExtent n x d.w1 ((rows - 1) * sp + rb)),
    (4, 0, cALIGN, aop != 0 && sp % w != 0),
    (4, 32, cRANGE, (decide (1 < rows) && decide (dp < rb)) || !s.dmaExtent n x d.w2 ((rows - 1) * dp + rb)),
    (4, 32, cALIGN, aop != 0 && dp % w != 0) ]

/-- Conditions on words 3 and 4 of a DATOM. -/
def State.atomChecks34 (s : State) (n x : Nat) (d : Desc) : List Check :=
  let ret := fld d.w3 21 0
  [ resv d 3 63 56, resv d 3 55 32, resv d 3 31 22,
    (3, 0, cALIGN, bitAt d.w0 51 && ret % 8 != 0), (3, 0, cRANGE, bitAt d.w0 51 && !s.inRegion n x ret 8),
    resv d 4 63 32, resv d 4 31 0 ]

/-- Conditions on words 5 to 7. -/
def State.dmaChecks57 (s : State) (d : Desc) : List Check :=
  let tag := if opOf d == 0x81 then 0 else dmaTag d
  let fv := fld d.w5 63 48
  let fmt := fmtOf fv
  let bad := (match fmt with
    | none => true
    | some f => !(f.scaled || f.affine))
  let wide := (match fmt with
    | none => false
    | some f => f.code.wide)
  let rows := (match fmt with
    | none => cOK
    | some f => if bad then cOK else tagRows d f)
  let cols := fld d.w6 31 0
  let odd := (match fmt with
    | none => false
    | some f => (f.code.bits == 4 && cols % 2 != 0) || (f.scaled && !f.col && cols % f.b != 0))
  let aop := dmaAop d
  let ordt := bitAt d.w0 50
  let ord := fld d.w7 63 58
  let cnt := fld d.w7 57 52
  [ (5, 0, cRANGE, tag == 0 && fld d.w5 47 0 != 0),
    (5, 48, cRANGE, if tag = 1 then bad else fv != 0), (5, 48, cVERSION, tag == 1 && !bad && s.fmtOld fv),
    (6, 0, cRANGE, tag != 1 && cols != 0), (6, 0, cALIGN, tag == 1 && !bad && odd), (6, 32, cRANGE, tag != 1 && fld d.w6 63 32 != 0),
    (6, 32, rows, tag == 1 && !bad && !wide && rows != cOK),
    (7, 0, cRANGE, !(tag == 1 && wide) && fld d.w7 47 0 != 0), (7, 0, rows, tag == 1 && !bad && wide && rows != cOK),
    (7, 0, cALIGN, tag == 1 && !bad && wide && fld d.w7 47 0 % 64 != 0),
    resv d 7 51 48,
    (7, 52, cRANGE, (aop == 0 || !ordt) && cnt != 0), (7, 58, cRANGE, (aop == 0 || !ordt) && ord != 0),
    (7, 58, cRANGE, ordt && decide (cnt < ord)) ]

/-- The first refusal of a DMA descriptor (R312). -/
def State.dmaRefusal (s : State) (n x : Nat) (d : Desc) : Option Refuse :=
  firstRefusal (s.dmaChecks0 n x d ++ s.dmaChecks12 n x d ++
    (if opOf d = 0x81 then s.atomChecks34 n x d else s.dmaChecks34 n x d) ++ s.dmaChecks57 d)

/-- Core-store lines of its own core that a DMA instruction will write (R120). -/
def State.dmaLines (s : State) (n : Nat) (d : Desc) : List Nat :=
  if opOf d = 0x81 then (if bitAt d.w0 51 then linesOf (fld d.w3 21 0) 8 else [])
  else
    let g := s.gaddr d.w2
    if g.node ≠ s.nodeId then []
    else
      match s.place g.loc with
      | .store c off =>
        if c ≠ n then []
        else
          (List.range (dmaRows d)).foldl (fun l r =>
            (linesOf (off + r * fld d.w4 63 32) (dmaRowBytes d)).foldl insSet l) []
      | _ => []

/-- A DMA instruction is decoded. -/
def State.issueDma (s : State) (own : Nat) (i : Issue) : Res :=
  wellFormed (opOk dmaGap own i.desc)
    (s.issue i 3 6 0x21 (s.dmaRefusal i.core.val i.ctx.val i.desc) (s.dmaLines i.core.val i.desc))

/-- DCOPY (R307, R308). -/
def execDcopy (i : Issue) (s : State) : Res := s.issueDma 0x80 i

/-- DATOM (R307, R309). -/
def execDatom (i : Issue) (s : State) : Res := s.issueDma 0x81 i

/-! ## Progress of a DMA instruction -/

/-- A DMA instruction ends with a code (R311): it issues no further request and its context faults. -/
def State.dmaEnd (s : State) (n x : Nat) (i : Ins) (cls code : Nat) : State :=
  let c := s.core n
  let s := s.setCore n { c with dma := c.dma.filter (fun j => !(j.ctx == x && j.ins.seq == i.seq)) }
  let s := (s.finishIns n x i).freeDemand n x i.seq
  s.faultCtx n x { unit := 6, cls := cls, code := code, pc := i.pc }

/-- FAULT.CLASS of the code of an adder, of a link, of a shared code (R311). -/
def nakClass (code : Nat) : Nat := if code = 0x40 then 0x50 else 0x21

/-- FAULT.CLASS of the code that answers an atomic: an adder refuses with RANGE, ALIGN, CONFLICT or CAPACITY (R303, R305,
R311). -/
def atomNakClass (code : Nat) : Nat :=
  if code = cRANGE ∨ code = cALIGN ∨ code = cCONFLICT ∨ code = cCAPACITY then 0x40 else nakClass code

/-- FAULT.CLASS of a DMA instruction that a NAK ends (R305, R311); an adder refuses an untagged FADD in fixed-order mode
with STATE (R34). -/
def dmaNakClass (d : Desc) (code : Nat) : Nat :=
  if opOf d ≠ 0x81 ∧ dmaAop d = 0 then nakClass code
  else if code = cSTATE ∧ dmaAop d = 3 ∧ !bitAt d.w0 50 then 0x40
  else atomNakClass code

/-- The tag of each byte of a copied piece (R94, R310), one more than the tag: from the source address. -/
def tagOf (d : Desc) (a : Nat) : Nat :=
  let base := fld d.w5 47 0
  match dmaTag d with
  | 1 =>
    (match fmtOf (fld d.w5 63 48) with
    | none => 1
    | some f =>
      let o := tagOff d f.code.wide a
      let pitch := fld d.w6 63 32
      let row := o / pitch
      let col := o % pitch * 8 / f.code.bits
      (if f.affine then row else ordinal row col f.b f.col (fld d.w6 31 0)) % 256 + 1)
  | 2 => (a - base) % 256 + 1
  | _ => (a - base) / 16 % 256 + 1

/-- The bytes of a core store take tags. -/
def State.putTags (s : State) (core : Nat) (ts : List (Nat × Nat)) : State :=
  let c := s.core core
  s.setCore core { c with tags := ts.foldl (fun (t : Tab Nat) (e : Nat × Nat) => Tab.put t e.1 e.2) c.tags }

/-- Core-store lines that a local copy has finished with: no later piece of it writes them. -/
def finishedLines (d : Desc) (off row byte len : Nat) : List Nat :=
  let at_ := off + row * fld d.w4 63 32 + byte
  let stop := at_ + len
  let next := off + (row + 1) * fld d.w4 63 32
  (linesOf at_ len).filter (fun l =>
    decide (l * 64 + 64 ≤ stop) ||
      (byte + len == dmaRowBytes d && (row + 1 == dmaRows d || decide (l * 64 + 64 ≤ next))))

/-- A request to another node: its tag, and the record of it. -/
def State.askNode (s : State) (n : Nat) (j : DmaJob) (node type addr w2 : Nat) (payload : List Byte) (ret : Option Nat)
    (due : Nat) : State :=
  let t := s.newTag
  let s := t.2
  let s := s.mapJob n j.ctx j.ins.seq (fun k => { k with open_ := k.open_ + 1 })
  let r : OutReq := { tag := t.1, type := type, core := n, ctx := j.ctx, seq := j.ins.seq, row := j.row, byte := j.byte, ret := ret, due := due }
  let s := { s with link := { s.link with reqs := s.link.reqs ++ [r] } }
  s.sendPacket (dieOf n) (s.mkPacket node type 0 t.1 addr w2 0 payload)

/-- Header word 2 of an atomic (R333). -/
def aopWord2 (d : Desc) : Nat :=
  dmaAop d * 2 ^ 60 + fld d.w0 57 56 * 2 ^ 58 + fld d.w7 63 58 * 2 ^ 52 + fld d.w7 57 52 * 2 ^ 46 +
    b2n (bitAt d.w0 51) * 2 ^ 45 + b2n (bitAt d.w0 50) * 2 ^ 44

/-- The ordinal tag of an atomic of a DMA instruction. -/
def aopTag (d : Desc) : Option (Nat × Nat) :=
  if bitAt d.w0 50 then some (fld d.w7 63 58, fld d.w7 57 52 + 1) else none

/-- Header word 2 of a WR. -/
def wrWord2 (d : Desc) (bad : Bool) : Nat :=
  b2n bad * 2 ^ 22 +
    (if dmaMcast d then 2 ^ 21 + fld d.w0 29 28 * 2 ^ 19 + fld d.w0 27 27 * 2 ^ 18 + fld d.w0 35 31 * 2 ^ 13 else 0)

/-- Words of a piece of an atomic copy go to adders of this node: the first refusal ends them. -/
def State.copyAtomics (s : State) (n : Nat) (j : DmaJob) (a : Nat) (bs : List Byte) : Nat × State :=
  let d := j.ins.desc
  let w := aopWidth (dmaAop d)
  (List.range (bs.length / w)).foldl (fun (acc : Nat × State) (k : Nat) =>
    if acc.1 ≠ cOK then acc
    else
      let s := acc.2.mapJob n j.ctx j.ins.seq (fun i => { i with open_ := i.open_ + 1 })
      s.atomic (dmaAop d) (a + k * w) (leNat ((bs.drop (k * w)).take w)) (aopTag d) (.dma n j.ctx j.ins.seq none))
    (cOK, s)

/-- A request of a piece joins the queue of the controller whose pseudo-channel is in hold, and counts as open (R299,
R316): none when it meets a limit. -/
def State.holdPiece (s : State) (n : Nat) (j : DmaJob) (what : Held) (a : Nat) (cls : Option Nat) : Option State :=
  (s.mapJob n j.ctx j.ins.seq (fun k => { k with open_ := k.open_ + 1 })).holdReq
    { what := what, line := a / 64, cls := cls, die := dieOf n }

/-- The write side of a piece of a copy on this node. -/
def State.dmaStore (s : State) (n : Nat) (j : DmaJob) (a : Nat) (bs : List Byte) (bad : Bool) : Option (Nat × Nat × State) :=
  let d := j.ins.desc
  let g := s.gaddr d.w2
  match s.ctxWrite n j.ctx j.ins.txn a bs bad with
  | none => none
  | some (c, s) =>
    if c ≠ cOK then some (0x21, c, s)
    else
      match s.place a with
      | .store core off =>
        let src := fld d.w1 47 0 + j.row * fld d.w4 31 0 + j.byte
        let s := if dmaTag d = 0 then s
          else s.putTags core ((List.range bs.length).map (fun k => (off + k, tagOf d (src + k))))
        let base := (g.loc - storeBase) % storeSize
        some (0, cOK, if core = n ∧ (s.gaddr d.w1).node = s.nodeId then
          s.setResident core (finishedLines d base j.row j.byte bs.length) true else s)
      | _ => some (0, cOK, s)

/-- The words of a piece of an atomic copy on this node. -/
def State.dmaAdd (s : State) (n : Nat) (j : DmaJob) (a : Nat) (bs : List Byte) (bad : Bool) : Option (Nat × Nat × State) :=
  let c := s.regionCode j.ins.txn a bs.length
  if s.closing a bs.length then none
  else if c ≠ cOK then some (0x21, c, s)
  else if bad then some (0, cOK, s.poisonRange a bs.length)
  else
    let r := s.copyAtomics n j a bs
    some (0x40, r.1, r.2)

/-- The write side of a piece of a copy: none while it must wait, else the class and code that end the
instruction, or OK, and the state. -/
def State.dmaDeliver (s : State) (n : Nat) (j : DmaJob) (bs : List Byte) (bad : Bool) : Option (Nat × Nat × State) :=
  let d := j.ins.desc
  let g := s.gaddr d.w2
  let a := g.loc + j.row * fld d.w4 63 32 + j.byte
  let aop := dmaAop d
  if g.node ≠ s.nodeId then
    if aop = 0 then
      some (0, cOK, s.askNode n j g.node 0x01 a (wrWord2 d bad) bs none (if dmaMcast d then fld d.w0 35 31 else 1))
    else
      let w := aopWidth aop
      some (0, cOK, (List.range (bs.length / w)).foldl (fun (s : State) (k : Nat) =>
        let x := leNat ((bs.drop (k * w)).take w)
        s.askNode n j g.node 0x03 (a + k * w) (aopWord2 d + b2n bad * 2 ^ 22) (natLe 64 x) none 1) s)
  else if s.placeCode a ≠ cOK then some (0x21, s.placeCode a, s)
  else
    match s.heldIn a bs.length with
    | some h => (s.holdPiece n j (.dmaWrite n j.ctx j.ins.seq j.row j.byte bs bad) h none).map (fun t => (0, cOK, t))
    | none => if aop = 0 then s.dmaStore n j a bs bad else s.dmaAdd n j a bs bad

/-- Bytes of the piece that the engine reads next: to the end of the source line or of the row. -/
def State.pieceLen (s : State) (j : DmaJob) : Nat :=
  let d := j.ins.desc
  let a := (s.gaddr d.w1).loc + j.row * fld d.w4 31 0 + j.byte
  min (64 - a % 64) (dmaRowBytes d - j.byte)

/-- The job after the piece: the next row, or all issued. -/
def DmaJob.advance (j : DmaJob) (len : Nat) : DmaJob :=
  let d := j.ins.desc
  if j.byte + len < dmaRowBytes d then { j with byte := j.byte + len }
  else if j.row + 1 < dmaRows d then { j with row := j.row + 1, byte := 0 }
  else { j with issued := true }

/-- Read class that a DMA instruction names (R300). -/
def dmaClass (d : Desc) : Nat := fld d.w0 57 56

/-- The read side of a piece on this node: a member of a transaction reads the lines it has tagged (R263). -/
def State.copyRead (s : State) (n : Nat) (j : DmaJob) (a len : Nat) : List Byte × Bool × State :=
  let view := (s.ctx n j.ctx).txn
  let s := (s.readReq a len (some (dmaClass j.ins.desc))).2
  let s := if a < s.hbmEnd then s.tookSlot (200 + (s.physMap a).1) (2 * n + j.ctx) else s
  (s.seen view a len, s.seenBad view (a / 64), s)

/-- The read side of a piece on this node, and its write side. -/
def State.copyNow (s : State) (n : Nat) (j : DmaJob) (a len : Nat) : Option (Nat × Nat × State) :=
  let r := s.copyRead n j a len
  r.2.2.dmaDeliver n j r.1 r.2.1

/-- One line request of a DCOPY. -/
def State.copyRequest (s : State) (n : Nat) (j : DmaJob) : Option (Nat × Nat × State) :=
  let d := j.ins.desc
  let g := s.gaddr d.w1
  let a := g.loc + j.row * fld d.w4 31 0 + j.byte
  let len := s.pieceLen j
  let step (s : State) : State := s.mapJob n j.ctx j.ins.seq (fun k => k.advance len)
  if g.node ≠ s.nodeId then
    some (0, cOK, step (s.askNode n j g.node 0x02 (a / 64 * 64) (dmaClass d * 2 ^ 58) [] none 1))
  else if s.placeCode a ≠ cOK then some (0x21, s.placeCode a, s)
  else if s.closing a len then none
  else if s.inHold a then
    (s.holdPiece n j (.dmaRead n j.ctx j.ins.seq j.row j.byte) a (some (dmaClass d))).map (fun t => (0, cOK, step t))
  else (s.copyNow n j a len).map (fun r => (r.1, r.2.1, step r.2.2))

/-- The atomic of a DATOM on this node. -/
def State.atomNow (s : State) (n : Nat) (j : DmaJob) (a : Nat) (ret : Option Nat) : Nat × Nat × State :=
  let d := j.ins.desc
  let w := aopWidth (dmaAop d)
  let c := s.regionCode j.ins.txn a w
  if c ≠ cOK then (0x21, c, s)
  else
    let s := s.mapJob n j.ctx j.ins.seq (fun k => { k with open_ := k.open_ + 1 })
    let r := s.atomic (dmaAop d) a (d.w1.toNat % 2 ^ (8 * w)) (aopTag d) (.dma n j.ctx j.ins.seq ret)
    (0x40, r.1, r.2)

/-- Core-store offset that the old word of a DATOM goes to. -/
def dmaRet (d : Desc) : Option Nat := if bitAt d.w0 51 then some (fld d.w3 21 0) else none

/-- The request of a DATOM. -/
def State.atomRequest (s : State) (n : Nat) (j : DmaJob) : Option (Nat × Nat × State) :=
  let d := j.ins.desc
  let g := s.gaddr d.w2
  let ret := dmaRet d
  let step (s : State) : State := s.mapJob n j.ctx j.ins.seq (fun k => { k with issued := true })
  if (match ret with
    | none => false
    | some r => s.pinned n (r / 64)) then none
  else if g.node ≠ s.nodeId then
    some (0, cOK, step (s.askNode n j g.node 0x03 g.loc (aopWord2 d) (natLe 64 (d.w1.toNat % 2 ^ (8 * aopWidth (dmaAop d)))) ret 1))
  else if s.placeCode g.loc ≠ cOK then some (0x21, s.placeCode g.loc, s)
  else if s.closing g.loc 8 then none
  else if s.inHold g.loc then
    (s.holdPiece n j (.dmaAtom n j.ctx j.ins.seq) g.loc none).map (fun t => (0, cOK, step t))
  else
    let r := s.atomNow n j g.loc ret
    some (r.1, r.2.1, step r.2.2)

/-- The oldest piece that waits to be written is written when it can be. -/
def State.unpark (s : State) (n : Nat) (j : DmaJob) : Option (Nat × Nat × State) :=
  match j.parked with
  | [] => none
  | p :: r =>
    let s := s.mapJob n j.ctx j.ins.seq (fun k => { k with
      parked := r
      open_ := k.open_ - 1 })
    s.dmaDeliver n { j with row := p.1, byte := p.2.1 } p.2.2.1 p.2.2.2

/-- The DMA engine issues a request of a job. -/
def State.dmaIssue (s : State) (n : Nat) (j : DmaJob) : Option State :=
  match (if j.parked != [] then s.unpark n j else if j.ins.op = 0x81 then s.atomRequest n j else s.copyRequest n j) with
  | none => none
  | some (cls, code, t) => some (if code = cOK then t else t.dmaEnd n j.ctx j.ins cls code)

/-- The context of a shared engine whose turn has come (R128, R129): in fixed-order mode the leaves alternate,
and a turn passes on only when its context is IDLE, HALTED or FAULTED. -/
def State.turnOk (s : State) (n x turn : Nat) : Bool :=
  if !s.leaves n || !s.fixedOrder then true
  else
    let other := s.ctxState n (1 - x)
    turn == x || other == 0 || other == 2 || other == 3

/-- The next DMA instruction of a context that the engine may take. -/
def State.dmaNext (s : State) (n x : Nat) : Option Ins :=
  let k := s.core n
  match (s.ctx n x).head 3 with
  | none => none
  | some i =>
    if i.op != 0x70 && s.runs n x && !(s.ctx n x).held i && k.dma.all (fun j => j.issued) && s.turnOk n x k.turnD then some i
    else none

/-- A DMA instruction is released to the engine. -/
def State.takeDma (s : State) (n x : Nat) (i : Ins) : State :=
  let s := (s.takeIns n x i).commitDemand n x i.seq 0
  let k := s.core n
  s.setCore n { k with
    dma := k.dma ++ [{ ctx := x, ins := i }]
    turnD := 1 - x }

/-- Requests of the core's DMA engine in flight (R299). -/
def Core.inFlight (k : Core) : Nat := (k.dma.map (fun j => j.open_)).sum

/-- Requests that the next piece of a job makes: one for each word of an atomic copy. -/
def State.pieceReqs (s : State) (j : DmaJob) : Nat :=
  if j.ins.op = 0x81 ∨ dmaAop j.ins.desc = 0 then 1 else s.pieceLen j / aopWidth (dmaAop j.ins.desc)

/-- DMA_LINE_REQUEST (R299, R308). -/
def execDmaLineRequest (core : CoreId) (ctx : CtxId) (s : State) : Res :=
  let n := core.val
  let x := ctx.val
  let k := s.core n
  if !s.live then .fault .notEnabled
  else
    match k.dma.find? (fun j => j.ctx == x && (!j.issued || j.parked != [])) with
    | some j =>
      if j.parked = [] ∧ 4096 < k.inFlight + s.pieceReqs j then .fault .notEnabled
      else
        (match s.dmaIssue n j with
        | none => .fault .notEnabled
        | some t => t.advance)
    | none =>
      match s.dmaNext n x with
      | none => .fault .notEnabled
      | some i =>
        if 4096 < k.inFlight + s.pieceReqs { ctx := x, ins := i } then .fault .notEnabled
        else if !s.fits n 0 then (if s.waitsAlready n x i.seq then .fault .notEnabled else (s.waitEnvelope n x i.seq).done)
        else
          let r := s.inject (pCOR n) 1
          if r.1 then (r.2.coreFault n false).advance
          else
            match (r.2.takeDma n x i).dmaIssue n { ctx := x, ins := i } with
            | none => .fault .notEnabled
            | some t => t.advance

/-- DMA_COMPLETE (R311). -/
def execDmaComplete (core : CoreId) (ctx : CtxId) (s : State) : Res :=
  let n := core.val
  let x := ctx.val
  let k := s.core n
  match k.dma.find? (fun j => j.ctx == x && j.issued && j.open_ == 0) with
  | none => .fault .notEnabled
  | some j =>
    let t := s.setCore n { k with dma := k.dma.filter (fun e => !(e.ctx == x && e.ins.seq == j.ins.seq)) }
    let t := (t.setResident n j.ins.lines true).finishIns n x j.ins
    happens s.live ((t.freeDemand n x j.ins.seq).signalTally n x j.ins)

end Sys2Proof.Machine
end

