-- ==== Sys2Proof/Machine/Flags.lean ====
section
/-! DEFINITION. Outcomes of instructions: the verdict sources they set (R215, R231), the flags of the vector
engine (R201, R202), the block tags they compare (R95), the pins and bits of the lines they use (R120). -/

namespace Sys2Proof.Machine

/-- An outcome that CFE.VERDICT_SRC selects sets the local NONFINITE bit (R215). -/
def State.verdictSrc (s : State) (bit : Nat) (raised : Bool) : State :=
  if raised && bitAt (s.reg pCFE 0x1D8) bit then s.verdictBit 0 else s

/-- Several outcomes at once: source bit and whether it was raised. -/
def State.verdictSrcs (s : State) (l : List (Nat × Bool)) : State := l.foldl (fun s e => s.verdictSrc e.1 e.2) s

/-- The first flag of an instruction: lowest index, then lowest bit (R202). -/
def firstFlag (fs : List (Nat × Nat)) : Option (Nat × Nat) :=
  fs.foldl (fun b f =>
    match b with
    | none => some f
    | some g => if f.1 < g.1 ∨ (f.1 = g.1 ∧ f.2 < g.2) then some f else some g) none

/-- A completed vector instruction raises its flags: sticky bits, the capture of the first when the context's
flags read 0 before, FLAGS0 or FLAGS1, and the verdict (R199, R202, R203, R215). -/
def State.raiseFlags (s : State) (n x pc : Nat) (fs : List (Nat × Nat)) : State :=
  let page := pVEC n
  let old := s.rf page 0x100 (8 * x + 6) (8 * x)
  let bits := fs.foldl (fun b f => b ||| 2 ^ f.2) 0
  let s := s.setRf page 0x100 (8 * x + 6) (8 * x) (old ||| bits)
  let s := (match firstFlag fs with
    | none => s
    | some f =>
      if old ≠ 0 then s
      else
        (s.setReg page (0x108 + 8 * x) (BitVec.ofNat 64 (2 ^ 63 + f.2 * 2 ^ 56 + f.1 % 2 ^ 32))).setReg page (0x118 + 8 * x)
          (BitVec.ofNat 64 pc))
  let s := s.raiseIf (decide (old ||| bits ≠ old)) page (2 + x)
  s.verdictSrcs [(3, bits.testBit 0), (4, bits.testBit 1), (5, bits.testBit 2), (6, bits.testBit 3), (7, bits.testBit 4),
    (8, bits.testBit 5)]

/-! ## Block tags (R94, R95) -/

/-- A tag comparison that fails: data tag and scale tag. -/
abbrev Skew := Option (Nat × Nat)

/-- The bytes of a data block, with an offset added for an odd 4-bit column, against the tag of its scale; a
byte that no tagged stream wrote matches. -/
def State.skewOf (s : State) (n : Nat) (bytes : List Nat) (plus scale : Nat) : Skew :=
  match s.tagAt n scale with
  | none => none
  | some t => bytes.findSome? (fun b =>
      match s.tagAt n b with
      | none => none
      | some d => if (d + plus) % 256 = t then none else some ((d + plus) % 256, t))

/-! ## Row records (R162) -/

/-- A row record (R162). -/
structure RowRec where
  sc : F32
  z : Int
  c : F32
  const : Bool
  nar : Bool
  ok : Bool
  deriving DecidableEq, Repr

/-- The row record at an offset. -/
def State.rowRec (s : State) (n off : Nat) : RowRec :=
  let w0 := s.storeNat n off 8
  let w1 := s.storeNat n (off + 8) 8
  let const := (w1 / 2 ^ 32).testBit 0
  let nar := (w1 / 2 ^ 32).testBit 1
  { sc := BitVec.ofNat 32 w0, z := toSigned 32 (w0 / 2 ^ 32), c := BitVec.ofNat 32 w1, const := const, nar := nar,
    ok := decide (w1 / 2 ^ 34 = 0) && !(const && nar) && !((const || nar) && w0 != 0) }

/-! ## Lines (R120) -/

/-- Every range ends, and begins, inside the region of the context. -/
def State.inside (s : State) (n x : Nat) (rs : List (Nat × Nat)) : Bool := rs.all (fun r => s.inRegion n x r.1 r.2)

/-- Lines that ranges of a core store cover. -/
def linesOfAll (rs : List (Nat × Nat)) : List Nat :=
  rs.foldl (fun l r => (linesOf r.1 r.2).foldl insSet l) []

/-- The first line of ranges that is not resident. -/
def State.notResident (s : State) (n : Nat) (rs : List (Nat × Nat)) : Option Nat :=
  let res := (s.core n).resident
  rs.findSome? (fun r => (linesOf r.1 r.2).find? (fun l => !res.contains l))

/-- Lines are pinned for an instruction. -/
def State.pin (s : State) (n x seq : Nat) (stationary : Bool) (lines : List Nat) : State :=
  let c := s.core n
  s.setCore n { c with pins := c.pins ++ lines.map (fun l => { line := l, ctx := x, seq := seq, stationary := stationary }) }

/-- The pins of an instruction end. -/
def State.unpin (s : State) (n x seq : Nat) : State :=
  let c := s.core n
  s.setCore n { c with pins := c.pins.filter (fun p => !(p.ctx == x && p.seq == seq)) }

/-- A release of `k` equal demands fits the envelope of the island (R440). -/
def State.fitsMany (s : State) (n base k : Nat) : Bool :=
  let i := s.islandOf n
  decide (s.committed i + s.addedDemand n 0 + k * s.scaleDemand (s.vidNow i) base ≤ s.envelopeNow i) && s.pwr.stopped.isNone

/-- A release commits `k` equal demands. -/
def State.commitMany (s : State) (n x seq base k : Nat) : State :=
  (List.range k).foldl (fun (s : State) (_ : Nat) => s.commitDemand n x seq base) s

/-- The instruction at the head of a class queue of a context that nothing holds. -/
def State.ready (s : State) (n x cls : Nat) : Option Ins :=
  match (s.ctx n x).head cls with
  | none => none
  | some i => if s.runs n x && !(s.ctx n x).held i then some i else none

/-- The other leaf has no instruction for a shared engine that is ready for it and reached it first: in free mode the engine
serves in the order of decode (R128; DEDUCED, log entry 57).  `may` says whether an instruction of a context is ready. -/
def State.firstCome (s : State) (n x cls : Nat) (i : Ins) (may : Nat → Ins → Bool) : Bool :=
  s.fixedOrder || !s.leaves n ||
    (match s.ready n (1 - x) cls with
    | none => true
    | some j => !(decide (j.stamp < i.stamp) && may (1 - x) j))

/-- A queued instruction leaves its queue and its engine abandons it; the resident bits of the lines it was to
write are set again over their old contents (R172). -/
def State.abandon (s : State) (n x : Nat) (i : Ins) : State :=
  let s := (s.takeIns n x i).finishIns n x i
  if i.lines = [] then s else s.setResident n i.lines true

end Sys2Proof.Machine
end

