-- ==== Sys2Proof/Machine/Crossing.lean ====
section
/-! DEFINITION. The crossings between clocked islands and clockless logic: the 16-token buffer, its fill level, idle
tokens, the hold at 15 tokens, and the passage of data (R25 to R27). -/

namespace Sys2Proof.Machine

/-- Tokens that a crossing buffer holds at most (R25). -/
def xingDepth : Nat := 16

/-- The fill level of a crossing (R25). -/
def xingFill : Nat := 8

/-- A buffer that alignment has emptied and filled with exactly 8 idle tokens (R27 steps 2 and 3). -/
def XBuf.filled : XBuf := { buf := List.replicate xingFill .idle, held := [] }

/-- One clock of the side that presents: the oldest data token it has, else an idle one; when the buffer holds 15 tokens
it keeps its data and presents nothing (R26). -/
def XBuf.present (b : XBuf) : XBuf :=
  if xingDepth - 1 ≤ b.buf.length then b
  else
    match b.held with
    | [] => { b with buf := b.buf ++ [.idle] }
    | t :: r => { buf := b.buf ++ [t], held := r }

/-- The other side takes the oldest token; an idle one is discarded (R25): the data it brings, if any. -/
def XBuf.take (b : XBuf) : Option Token × XBuf :=
  match b.buf with
  | [] => (none, b)
  | t :: r => (if t = .idle then none else some t, { b with buf := r })

/-- `n` clocks in which one side presents and the other takes: the data taken, oldest first. -/
def XBuf.run (b : XBuf) (n : Nat) : List Token × XBuf :=
  match n with
  | 0 => ([], b)
  | k + 1 =>
    let t := b.present.take
    let r := t.2.run k
    (t.1.toList ++ r.1, r.2)

/-- Data enters the queue of the presenting side and the crossing runs until it has all been taken: what comes out, in
order. -/
def XBuf.pass (b : XBuf) (ts : List Token) : List Token × XBuf :=
  let b := { b with held := b.held ++ ts }
  b.run (b.held.length + b.buf.length + 2)

/-- The packets among tokens. -/
def packetsOf (ts : List Token) : List Packet :=
  ts.filterMap (fun t =>
    match t with
    | .packet p => some p
    | .idle => none
    | .datum _ => none)

/-- A packet passes a crossing towards the clockless side: the packets that come out. -/
def State.crossIn (s : State) (i : Nat) (p : Packet) : List Packet × State :=
  let x := s.xing i
  let r := x.tx.pass [.packet p]
  (packetsOf r.1, s.setXing i { x with tx := r.2 })

/-- A packet passes a crossing towards the clocked side. -/
def State.crossOut (s : State) (i : Nat) (p : Packet) : List Packet × State :=
  let x := s.xing i
  let r := x.rx.pass [.packet p]
  (packetsOf r.1, s.setXing i { x with rx := r.2 })

/-- A crossing empties its buffers (R27 step 2). -/
def State.emptyXing (s : State) (i : Nat) : State := s.setXing i {}

/-- Each writing side of a crossing inserts exactly 8 idle tokens (R27 step 3). -/
def State.fillXing (s : State) (i : Nat) : State := s.setXing i { tx := .filled, rx := .filled }

end Sys2Proof.Machine
end

