-- ==== Sys2Proof/Machine/Link.lean ====
section
/-! DEFINITION. Torus ports: training, the link layer with its replay buffer, credits and packet slots, and the
per-link reset (R29, R326 to R332, R340 to R342, R372, R373, R517). -/

namespace Sys2Proof.Machine

/-! ## Packets on a port -/

/-- Buffer units of a packet (R333). -/
def bufUnits (p : Packet) : Nat := pktUnits p + 1

/-- XT: the packet travels a transit segment. -/
def pktXt (p : Packet) : Bool := bitAt p.w0 47

/-- The virtual channel a packet travels on: that of its TYPE, or VC3 on a transit segment (R343). -/
def laneOf (p : Packet) : Nat := if pktXt p then 3 else (vcOfType (pktType p)).getD 0

/-- A packet that a receiver discards: a reserved TYPE, or a reserved field that is not 0 (R333, R354). -/
def badHeader (p : Packet) : Bool :=
  let coll := pktType p == 0x10
  (vcOfType (pktType p)).isNone || bitAt p.w0 63 || fld p.w2 43 40 != 0 ||
    (if coll then fld p.w2 4 0 != 0 || fld p.w3 43 40 != 0 else fld p.w2 12 0 != 0)

/-- The header as a version below HTL2 carries it: NONFINITE and VREC are 0 (R373). -/
def oldHeader (htl : Nat) (p : Packet) : Packet :=
  if 2 ≤ htl then p
  else
    let w := setBit p.w2 23 false
    { p with w2 := if pktType p = 0x10 then setBit w 11 false else w }

/-- TOR.LINK.HTL of a port. -/
def State.htl (s : State) (p : Nat) : Nat := s.rf (pTOR p) 0x108 7 6

/-- Low bit of a virtual channel's field in TOR.CREDITS. -/
def creditBit (vc : Nat) : Nat := if vc = 0 then 0 else if vc = 1 then 16 else if vc = 2 then 32 else 48

/-- TOR.CREDITS: free downstream units of a virtual channel. -/
def State.credits (s : State) (p vc : Nat) : Nat := s.rf (pTOR p) 0x140 (creditBit vc + 8) (creditBit vc)

/-- The state with a credit count set. -/
def State.setCredits (s : State) (p vc n : Nat) : State := s.setRf (pTOR p) 0x140 (creditBit vc + 8) (creditBit vc) n

/-- Input buffer of a virtual channel. -/
def Port.inBuf (k : Port) (vc : Nat) : List Packet := if vc = 0 then k.in0 else if vc = 1 then k.in1 else if vc = 2 then k.in2 else k.in3

/-- The port with an input buffer set. -/
def Port.setInBuf (k : Port) (vc : Nat) (l : List Packet) : Port :=
  if vc = 0 then { k with in0 := l } else if vc = 1 then { k with in1 := l } else if vc = 2 then { k with in2 := l } else { k with in3 := l }

/-- Packets routed to an output, by virtual channel. -/
def Port.outBuf (k : Port) (vc : Nat) : List OutPkt := if vc = 0 then k.out0 else if vc = 1 then k.out1 else if vc = 2 then k.out2 else k.out3

/-- The port with the packets routed to it set. -/
def Port.setOutBuf (k : Port) (vc : Nat) (l : List OutPkt) : Port :=
  if vc = 0 then { k with out0 := l } else if vc = 1 then { k with out1 := l } else if vc = 2 then { k with out2 := l } else { k with out3 := l }

/-- The rotation of a virtual channel over the input slots. -/
def Port.rot (k : Port) (vc : Nat) : Nat := if vc = 0 then k.rot0 else if vc = 1 then k.rot1 else if vc = 2 then k.rot2 else k.rot3

/-- The port with a rotation set. -/
def Port.setRot (k : Port) (vc n : Nat) : Port :=
  if vc = 0 then { k with rot0 := n } else if vc = 1 then { k with rot1 := n } else if vc = 2 then { k with rot2 := n } else { k with rot3 := n }

/-- COLL packets that hold their units in the VC2 buffer of an input slot until their collective takes them (R351). -/
def State.collHeld (s : State) (slot : Nat) : List Packet :=
  ((s.link.arrivals.filter (fun e => e.1 == slot && pktType e.2 == 0x10)).map (·.2)) ++
    ((s.coll.waiting.filter (fun w => w.1 == slot)).map (fun w => w.2.2.2))

/-- Units of an input buffer that are taken: packets that have not been routed, routed ones that have not left, and COLL
packets that wait for their collective (R340, R351). -/
def State.inUnits (s : State) (p vc : Nat) : Nat :=
  let waiting := (((s.port p).inBuf vc).map bufUnits).sum
  let routed := ((List.range 12).map (fun q => ((List.range 4).map (fun v =>
    ((((s.port q).outBuf v).filter (fun (o : OutPkt) => o.slot == p + 1 && o.inVc == vc && !o.shared)).map (fun (o : OutPkt) => bufUnits o.pkt)).sum)).sum)).sum
  waiting + routed + (if vc = 2 then ((s.collHeld (p + 1)).map bufUnits).sum else 0)

/-- The units of a packet at an input drain, and their credits go back; the injection point has none. -/
def State.drainInput (s : State) (slot vc : Nat) (p : Packet) : State :=
  if slot = 0 then s else s.emit (.credit (slot - 1) vc (bufUnits p))

/-- A packet has left an output: its units at the input drain, unless a copy of it still holds them. -/
def State.drainOut (s : State) (o : OutPkt) : State := if o.shared then s else s.drainInput o.slot o.inVc o.pkt

/-- The ports whose outputs no longer share the units of an input slot. -/
def Port.unshare (k : Port) (slot : Nat) : Port :=
  let f (o : OutPkt) : OutPkt := if o.slot = slot then { o with shared := false } else o
  { k with
    out0 := k.out0.map f
    out1 := k.out1.map f
    out2 := k.out2.map f
    out3 := k.out3.map f }

/-- A COLL packet has been taken from its input slot (R351): its units drain, unless the copy of a multicast that goes on
has yet to leave. -/
def State.collDrain (s : State) (slot : Nat) (p : Packet) : State :=
  let mine (o : OutPkt) : Bool := o.slot == slot && o.shared
  let goes := s.link.ports.any (fun e => (e.2.out0 ++ e.2.out1 ++ e.2.out2 ++ e.2.out3).any mine)
  if slot = 0 then s
  else if goes then { s with link := { s.link with ports := s.link.ports.map (fun e => (e.1, e.2.unshare slot)) } }
  else s.drainInput slot 2 p

/-! ## Training (R328 to R330) -/

/-- TOR.LINK.STATE is set; leaving UP raises LINK_DOWN, and HTL and GEN.PARTNERS read 0. -/
def State.setLink (s : State) (p st : Nat) : State :=
  let up := s.linkState p == 2
  let s := s.setRf (pTOR p) 0x108 2 0 st
  if up && st != 2 then ((s.setRf (pTOR p) 0x108 7 6 0).setRf pGEN 0x110 (2 * p + 1) (2 * p) 0).raise (pTOR p) 1 else s

/-- A port starts R329 anew, or stays NOPROFILE (R327). -/
def State.beginTraining (s : State) (p : Nat) : State :=
  match facingOf s.profile p with
  | none => s.setLink p 6
  | some f =>
    let r := s.inject (pTOR p) 4
    let s := r.2.setLink p 1
    let s := (s.setRf (pTOR p) 0x108 11 9 f).setRf (pTOR p) 0x108 12 12 0
    s.setPort p { s.port p with
      step := 1
      window := false
      locked := []
      rate := 1
      spareFor := none
      spareLocked := false
      record := none
      stuck := 0
      failLane := r.1 }

/-- Crossing of a torus port: 13 * die + XING (R475). -/
def portXing (p : Nat) : Nat := 13 * (p / 3) + 5 + p % 3

/-- A per-link reset (R29, R411): a port that has been UP retrains, TOR.SEQ at its reset value.  The port's own crossing is
emptied and realigned, the spare-lane crossing of its die is not, and the fixed sequence of a run ends as the reset
starts: DESIGN CHOICES, log entry 52. -/
def State.relinkPort (s : State) (p : Nat) : State :=
  let was := s.linkState p == 2 || (s.port p).relink
  let s := s.setPort p { s.port p with relink := was }
  let s := s.setRf (pTOR p) 0x108 23 16 (s.rf (pTOR p) 0x108 23 16 + 1)
  let x := portXing p
  let s := { s with boot := { s.boot with
    filled := delSet s.boot.filled x
    ticked := delSet s.boot.ticked x
    aligned := delSet s.boot.aligned x } }
  (((s.emptyXing x).setReg (pTOR p) 0x148 0).beginTraining p).voidSeq 38

/-- A port ends its training in a state without traffic. -/
def State.failPort (s : State) (p st : Nat) : State := s.setLink p st

/-- The spare of a die serves a port and no other (R328). -/
def State.spareFree (s : State) (p : Nat) : Bool :=
  bitAt (s.reg (pTOR p) 0x100) 8 && s.rf (pRTR (p / 3)) 0x120 1 0 == p % 3 &&
    (rangeFrom (p / 3 * 3) 3).all (fun q => q == p || !bitAt (s.reg (pTOR q) 0x118) 7)

/-- The link kind of R330: none refused, some whether it is a WRAP candidate. -/
def linkKind (own facing : Nat) (partner : Nat) (partnerFacing : Nat) : Option Bool :=
  let ax := facing / 2
  let neg := facing % 2 == 1
  let a := coordOf own ax
  let b := coordOf partner ax
  if partnerFacing ≠ (if neg then facing - 1 else facing + 1) ∨ withCoord own ax 0 ≠ withCoord partner ax 0 then none
  else if neg then
    if b + 1 = a then some false else if a = 0 ∧ 1 ≤ b then some true else none
  else if b = a + 1 then some false
  else if b = 0 ∧ 1 ≤ a then some true
  else none

/-- Node id of the sender of a training record. -/
def recNode (r : TrainRec) : Nat := r.x.val * 1024 + r.y.val * 32 + r.z.val

/-- The highest version of a record's set. -/
def recGen (r : TrainRec) : Nat := if bitAt (BitVec.ofNat 64 r.versions.toNat) 2 then 3 else if bitAt (BitVec.ofNat 64 r.versions.toNat) 1 then 2 else 1

/-- The highest version that both ends offer; 0 when there is none. -/
def common (max : Nat) (r : TrainRec) : Nat :=
  ((List.range 4).filter (fun v => decide (1 ≤ v ∧ v ≤ max) && r.versions.toNat.testBit (v - 1))).getLastD 0

/-- Steps 4 to 6 of R329: the partner is checked, the version selected, and the lanes retrain at its rate. -/
def State.checkRecord (s : State) (p : Nat) (r : TrainRec) : State :=
  match linkKind s.nodeId (s.rf (pTOR p) 0x108 11 9) (recNode r) r.facing.val with
  | none => (s.failPort p 4).raise (pTOR p) 2
  | some wrap =>
    let s := s.setRf (pTOR p) 0x108 12 12 (b2n wrap)
    let s := s.setReg (pTOR p) 0x110 (BitVec.ofNat 64 (2 ^ 24 + r.port.val * 2 ^ 16 + recNode r))
    let v := common (s.rf (pTOR p) 0x100 1 0) r
    if v = 0 then s.failPort p 5
    else s.setPort p { s.port p with
      rate := v
      step := if 1 < v then 6 else 7
      locked := [] }

/-- The lock window of a port begins. -/
def State.openWindow (s : State) (p : Nat) : State :=
  s.setPort p { s.port p with
    step := 2
    window := true }

/-- LINK_SIGNAL_DETECT (R329): the lock window begins.  A training signal of the partner on a port that has ended its
training means that the partner trains the link anew, and this end resets the link with it. -/
def execLinkSignalDetect (port : PortId) (_lane : LaneId) (s : State) : Res :=
  let p := port.val
  let k := s.port p
  let l := s.linkState p
  if 2 ≤ l ∧ l ≤ 5 then occurs s.live ((s.relinkPort p).openWindow p)
  else occurs (l == 1 && k.step == 1 && !k.window) (s.openWindow p)

/-- Lanes of a port that have not locked. -/
def Port.unlocked (k : Port) : List Nat := (List.range 4).filter (fun l => !k.locked.contains l)

/-- The lanes of a list as bits. -/
def laneBits (l : List Nat) : Nat := (l.map (fun i => 2 ^ i)).sum

/-- The training record that a port sends (R329 step 3): this generation supports HTL1 to HTL3. -/
def State.ownRecord (s : State) (p : Nat) : TrainRec :=
  { x := Fin.ofNat 32 (coordOf s.nodeId 0), y := Fin.ofNat 32 (coordOf s.nodeId 1), z := Fin.ofNat 32 (coordOf s.nodeId 2),
    facing := Fin.ofNat 6 (s.rf (pTOR p) 0x108 11 9), port := Fin.ofNat 12 p, versions := 0b111#3, maxRate := 3,
    spareUsable := s.spareFree p, failedLanes := BitVec.ofNat 4 (laneBits (s.port p).unlocked) }

/-- The lock window of a port has ended with at most one lane failed (R329 steps 2 and 3): TOR.LANES shows the lanes, and
the port sends its record. -/
def State.exchange (s : State) (p : Nat) : State :=
  let s := s.setReg (pTOR p) 0x118 (BitVec.ofNat 64 (laneBits (s.port p).unlocked))
  let s := s.setPort p { s.port p with step := 3 }
  s.emit (.trainRecord p (s.ownRecord p))

/-- A lane of a port reports lock. -/
def State.lockLane (s : State) (p lane : Nat) : State :=
  let k := s.port p
  if k.step = 5 then
    let s := s.setPort p { k with spareLocked := true }
    let s := (s.setRf (pTOR p) 0x118 7 7 1).setRf (pTOR p) 0x118 6 4 lane
    let s := s.raise (pTOR p) 4
    (match k.record with
    | none => s
    | some r => s.checkRecord p r)
  else
    let l := insSet k.locked lane
    let s := s.setPort p { k with locked := l }
    if l.length ≠ 4 then s
    else if k.step = 6 then s.setPort p { s.port p with step := 7 }
    else s.exchange p

/-- A lane can report lock: in the lock window or at the selected rate, once; the spare in the place of its
lane; a lane that an injection fails does not (R517). -/
def Port.mayLock (k : Port) (lane : Nat) : Bool :=
  (k.step == 2 && !k.locked.contains lane && !(k.failLane && lane == 0)) ||
    (k.step == 6 && !k.locked.contains lane) || (k.step == 5 && k.spareFor == some lane)

/-! ## The link layer (R331, R332) -/

/-- A packet goes on the wire, with the injections of points 1 to 3 (R517). -/
def State.wire (s : State) (p seq : Nat) (k : Packet) : State :=
  let a := s.inject (pTOR p) 1
  let b := a.2.injectCodewords (pTOR p) 2
  let c := b.2.injectCodewords (pTOR p) 3
  c.2.emit (.packet p seq (oldHeader (c.2.htl p) k) (if a.1 then 1 else if c.1 then 3 else if b.1 then 2 else 0))

/-- The replay buffer is sent again, in the original order. -/
def State.resendAll (s : State) (p : Nat) : State :=
  (s.port p).replay.foldl (fun (s : State) (e : Nat × Packet) => s.wire p e.1 e.2) s

/-- A resend; after 16 without progress the port performs a per-link reset. -/
def State.resend (s : State) (p : Nat) : State :=
  let k := s.port p
  if k.replay = [] then s
  else if 16 ≤ k.stuck then s.relinkPort p
  else ((s.setPort p { k with stuck := k.stuck + 1 }).addReg (pTOR p) 0x138 1).resendAll p

/-- The replay buffer without the packets before a sequence number; all of it when the number is not in it
and is the next one. -/
def Port.ackTo (k : Port) (next expected : Nat) : Port :=
  let keep := if expected = next then [] else if k.replay.any (fun e => e.1 == expected) then k.replay.dropWhile (fun e => e.1 != expected) else k.replay
  { k with
    replay := keep
    stuck := if keep.length < k.replay.length then 0 else k.stuck }

/-- Next sequence number to send. -/
def State.nextSeq (s : State) (p : Nat) : Nat := s.rf (pTOR p) 0x148 11 0

/-- Next sequence number expected. -/
def State.expSeq (s : State) (p : Nat) : Nat := s.rf (pTOR p) 0x148 27 16

/-- A link layer sends packets: it is UP, and no freeze of scope machine holds every packet (R466, R468). -/
def State.linkSends (s : State) (p : Nat) : Bool := s.linkState p == 2 && (s.live || s.rf pSHT 0x110 9 8 != 2)

/-- LINK_ACK (R331). -/
def execLinkAck (port : PortId) (seq : Fin 4096) (s : State) : Res :=
  let p := port.val
  occurs (s.linkState p == 2) (s.setPort p ((s.port p).ackTo (s.nextSeq p) ((seq.val + 1) % 4096)))

/-- LINK_NAK (R331). -/
def execLinkNak (port : PortId) (expected : Fin 4096) (s : State) : Res :=
  let p := port.val
  occurs (s.linkSends p) ((s.setPort p ((s.port p).ackTo (s.nextSeq p) expected.val)).resend p)

/-- REPLAY_TIMEOUT (R331). -/
def execReplayTimeout (port : PortId) (s : State) : Res :=
  occurs (s.live && s.linkState port.val == 2 && (s.port port.val).replay != []) (s.resend port.val)

/-- A packet that the CRC passed and that is the expected one reaches its input buffer, or is discarded. -/
def State.acceptPacket (s : State) (p : Nat) (k : Packet) : State :=
  if badHeader k then ((s.addReg (pRTR (p / 3)) 0x140 1).raise (pRTR (p / 3)) 2).drainInput (p + 1) (laneOf k) k
  else
    let k := oldHeader (s.htl p) k
    let b := s.port p
    s.setPort p (b.setInBuf (laneOf k) (b.inBuf (laneOf k) ++ [k]))

/-- A packet arrives on a port. -/
def State.receivePacket (s : State) (p seq : Nat) (crcOk : Bool) (corrected uncorrectable : Nat) (k : Packet) : State :=
  let s := (s.addReg (pTOR p) 0x120 corrected).addReg (pTOR p) 0x128 uncorrectable
  let s := s.raiseIf (decide (0 < uncorrectable)) (pTOR p) 5
  let exp := s.expSeq p
  if !crcOk then (s.addReg (pTOR p) 0x130 1).emit (.linkNak p exp)
  else if seq ≠ exp then s.emit (.linkNak p exp)
  else
    let r := ((s.setRf (pTOR p) 0x148 27 16 (exp + 1)).emit (.linkAck p seq)).crossIn (portXing p) k
    r.1.foldl (fun (s : State) (q : Packet) => s.acceptPacket p q) r.2

/-- LINK_PACKET_RECEIVE (R331 to R333, R340): a partner sends only what the input buffer has room for, and a
codeword that is uncorrectable fails the CRC. -/
def execLinkPacketReceive (port : PortId) (seq : Fin 4096) (crcOk : Bool) (corrected uncorrectable : Nat) (p : Packet)
    (s : State) : Res :=
  let n := port.val
  let room := decide (s.inUnits n (laneOf p) + bufUnits p ≤ 288)
  wellFormed (decide (p.payload.length ≤ 8192) && (uncorrectable == 0 || !crcOk))
    (occurs (s.linkState n == 2 && (room || !crcOk || seq.val != s.expSeq n))
      (s.receivePacket n seq.val crcOk corrected uncorrectable p))

/-! ## Departure (R340 to R342) -/

/-- Replay buffer bytes (R331). -/
def Port.replayBytes (k : Port) : Nat := (k.replay.map (fun e => 40 + 64 * pktUnits e.2)).sum

/-- Virtual channel of a packet slot: eight slots of an even frame, eight of an odd one. -/
def slotVc (i : Nat) : Nat := ([3, 2, 0, 1, 2, 0, 1, 2] : List Nat).getD (i % 8) 3

/-- A packet is foreign at this node (R343). -/
def State.foreign (s : State) (p : Packet) : Bool := fld p.w0 31 16 != s.sliceId

/-- The frozen node lets a packet go: foreign transit, while the freeze is of scope node or slice (R468). -/
def State.goes (s : State) (p : Packet) : Bool :=
  s.live || (s.rf pSHT 0x110 9 8 != 2 && pktXt p && s.foreign p)

/-- The oldest packet of every input slot among those routed to an output. -/
def firsts (l : List OutPkt) : List OutPkt :=
  l.foldl (fun (b : List OutPkt) (o : OutPkt) => if b.any (fun c => c.slot == o.slot) then b else b ++ [o]) []

/-- A packet can leave: credit, room in the replay buffer, and no freeze that holds it. -/
def State.canLeave (s : State) (p vc : Nat) (o : OutPkt) : Bool :=
  decide (o.need ≤ s.credits p vc ∧ bufUnits o.pkt ≤ s.credits p vc) && decide ((s.port p).replayBytes + 40 + 64 * pktUnits o.pkt ≤ 262144) && s.goes o.pkt

/-- The packet that a slot serves: in arrival order in free mode; in fixed-order mode the first input slot of the
rotation, and on VC3 foreign transit in even frames and own packets in odd ones, each with a rotation of its own
(R342). -/
def State.slotPacket (s : State) (p i : Nat) : Option OutPkt :=
  let vc := slotVc i
  let k := s.port p
  let l := firsts (k.outBuf vc)
  if s.fixedOrder then
    let l := if vc = 3 then l.filter (fun o => s.foreign o.pkt == decide (i < 8)) else l
    let turn := if vc = 3 ∧ i < 8 then k.rotF else k.rot vc
    let far (o : OutPkt) := (o.slot + 13 - turn) % 13
    let best := l.foldl (fun (b : Option OutPkt) (o : OutPkt) => (match b with
      | none => some o
      | some c => if far o < far c then some o else some c)) none
    best.filter (s.canLeave p vc)
  else l.find? (s.canLeave p vc)

/-- The next slot of the frame that serves something, and its packet. -/
def State.nextSlot (s : State) (p : Nat) : Option (Nat × OutPkt) :=
  (List.range 16).findSome? (fun d =>
    let i := ((s.port p).slot + d) % 16
    (s.slotPacket p i).map (fun o => (i, o)))

/-- A packet departs: it takes credit, a sequence number and a place in the replay buffer, and passes its crossing. -/
def State.departPacket (s : State) (p i : Nat) (o : OutPkt) : State :=
  let vc := slotVc i
  let k := s.port p
  let next := (o.slot + 1) % 13
  let k := if vc = 3 ∧ s.foreign o.pkt then { k with rotF := next } else k.setRot vc next
  let seq := s.nextSeq p
  let s := s.setPort p ({ k with
    slot := (i + 1) % 16
    replay := k.replay ++ [(seq, o.pkt)] }.setOutBuf vc ((k.outBuf vc).erase o))
  let s := s.setCredits p vc (s.credits p vc - bufUnits o.pkt)
  let s := s.setRf (pTOR p) 0x148 11 0 (seq + 1)
  let r := s.crossOut (portXing p) o.pkt
  (r.1.foldl (fun (s : State) (q : Packet) => s.wire p seq q) r.2).drainOut o

/-- PACKET_DEPART (R341, R342): the next slot of the frame with a packet able to leave is one of `vc`. -/
def execPacketDepart (port : PortId) (vc : VcId) (s : State) : Res :=
  let p := port.val
  match s.nextSlot p with
  | none => .fault .notEnabled
  | some (i, o) => occurs (s.linkState p == 2 && slotVc i == vc.val) (s.departPacket p i o)

/-- CREDIT_RETURN (R340): never beyond the 288 units of a buffer. -/
def execCreditReturn (port : PortId) (vc : VcId) (units : Nat) (s : State) : Res :=
  let n := s.credits port.val vc.val + units
  occurs (s.linkState port.val == 2 && decide (n ≤ 288)) (s.setCredits port.val vc.val n)

/-! ## UP -/

/-- The replay buffer and TOR.SEQ of a port that comes UP again: both ends number anew (R331, R411; DESIGN CHOICE, log
entry 53). -/
def State.renumber (s : State) (p : Nat) : State :=
  let k := s.port p
  let s := s.setPort p { k with replay := (List.range k.replay.length).zip (k.replay.map (·.2)) }
  s.setReg (pTOR p) 0x148 (BitVec.ofNat 64 k.replay.length)

/-- A port goes UP (R329 step 8, R372). -/
def State.portUp (s : State) (p : Nat) : State :=
  let k := s.port p
  let gen := (match k.record with
    | none => 3
    | some r => recGen r)
  let s := (s.setLink p 2).setRf (pTOR p) 0x108 7 6 k.rate
  let s := s.setRf pGEN 0x110 (2 * p + 1) (2 * p) gen
  let s := s.setPort p { k with relink := false }
  let s := if k.relink then s.renumber p
    else ([0, 1, 2, 3].foldl (fun (s : State) (v : Nat) => s.setCredits p v 288) s).setReg (pTOR p) 0x148 0
  let s := s.raiseAll (pTOR p) (if k.rate < 3 then [0, 3] else [0])
  (s.raiseIf (decide (gen < 3)) pGEN 1).resendAll p

/-- LINK_UP (R329 steps 7 and 8). -/
def execLinkUp (port : PortId) (s : State) : Res :=
  let p := port.val
  occurs (s.linkState p == 1 && (s.port p).step == 7 && s.boot.aligned.contains (portXing p)) (s.portUp p)

/-- A write of TOR.RETRAIN_REQ with GO = 1; no port trains under a reserved profile (R327). -/
def State.torRetrain (s : State) (p : Nat) : Nat × State :=
  if s.linkState p = 1 then (cSTATE, s) else if s.linkState p = 6 then (cOK, s) else (cOK, s.relinkPort p)

/-- TOR_RETRAIN_REQ (R329, R345). -/
def execTorRetrainReq (port : PortId) (src : Src) (s : State) : Res := s.serveRow (pTOR port.val) 0x150 src (s.torRetrain port.val)

end Sys2Proof.Machine
end

