-- ==== Sys2Proof/Machine/Sync.lean ====
section
/-! DEFINITION. The meanings of the sync instructions, of watches, wakes, cancels and engine signals, and of
the SYN registers (09_synchronisation.md). -/

namespace Sys2Proof.Machine

/-! ## Instructions -/

/-- A sync instruction is decoded. -/
def State.issueSync (s : State) (own : Nat) (i : Issue) : Res :=
  wellFormed (opOk syncGap own i.desc)
    (s.issue i 4 7 0x30 (s.syncRefusal i.core.val i.ctx.val i.desc) [])

/-- TSIG (R235, R236, R241). -/
def execTsig (i : Issue) (s : State) : Res := s.issueSync 0x50 i
/-- TWAIT (R237, R243). -/
def execTwait (i : Issue) (s : State) : Res := s.issueSync 0x51 i
/-- PPUT (R238, R239). -/
def execPput (i : Issue) (s : State) : Res := s.issueSync 0x52 i
/-- PTAKE (R238, R239). -/
def execPtake (i : Issue) (s : State) : Res := s.issueSync 0x53 i
/-- SOWN (R246). -/
def execSown (i : Issue) (s : State) : Res := s.issueSync 0x54 i
/-- SDROP (R246). -/
def execSdrop (i : Issue) (s : State) : Res := s.issueSync 0x55 i

/-! ## Watches and wakes -/

/-- The request that a die unit serves next: the oldest in free mode; in fixed-order mode the first in the
rotation of slots (R250). -/
def State.nextReq (s : State) (die : Nat) : Option SyncReq :=
  let rs := s.sync.reqs.filter (fun r => r.die == die)
  if s.fixedOrder then
    let far (r : SyncReq) := s.slotsAway die r.slot
    rs.foldl (fun b r => match b with
      | none => some r
      | some c => if far r < far c then some r else some c) none
  else rs.head?

/-- A die unit serves one watch request (R243 steps 3 and 4, R244). -/
def State.serveWatch (s : State) (r : SyncReq) : State :=
  let s := ({ s with sync := { s.sync with reqs := s.sync.reqs.erase r } } : State).tookSlot r.die r.slot
  let unit := 144 + r.die
  let key := objKey unit r.kind r.index
  let w : Waiter := { node := r.node, core := r.core, ctx := r.ctx, epoch := r.epoch, tag := r.tag, amount := r.amount, take := false }
  if !s.enabled (pSYN unit) then s.sendWake key w cDEPENDENCY
  else
    let a := s.serveWait unit r.op r.index r.amount r.rel w true
    match a.1 with
    | none => a.2
    | some code => a.2.sendWake key w code

/-- WATCH_REQUEST (R243). -/
def execWatchRequest (die : DieId) (s : State) : Res :=
  match s.nextReq die.val with
  | none => .fault .notEnabled
  | some r => occurs s.live (s.serveWatch r)

/-- A wait ends with a status (R241, R245). -/
def State.endWait (s : State) (n x : Nat) (w : WaitSt) (status : Nat) : State :=
  let s := s.setCtx n x { s.ctx n x with wait := none, heldWake := none }
  if status = 0x42 then
    (s.markVoid 33).syncFault n x w.ins status
  else s.endSync n x w.ins status

/-- Islands of a die whose VID their ceilings no longer bear go down to one they bear (R443). -/
def State.lowerVids (s : State) (die : Nat) : State :=
  (rangeFrom (8 * die) 8).foldl (fun (s : State) (j : Nat) =>
    let v := s.islandVid j (s.rf (pPWR j) 0x108 21 16)
    if v < s.vidNow j then s.setVid j v else s) s

/-- The first wake of a lending island takes its budget back: the borrowers' voltages go down, and it ramps up (R252,
R443). -/
def State.reclaim (s : State) (n : Nat) : State :=
  let i := s.islandOf n
  let l := s.island i
  if !l.lends then s
  else
    let s := (s.setIsland i { l with lends := false }).lowerVids (i / 8)
    s.requestRamp i (s.rampTop i)

/-- A wake reaches a sync port: it ends the wait it is for, is held while the context is PREEMPTED, and is
ignored otherwise (R243, R245, R248). -/
def State.deliverWake (s : State) (m : WakeMsg) : State :=
  let n := m.core.val
  let x := m.ctx.val
  let c := s.ctx n x
  match c.wait with
  | none => s
  | some w =>
    if w.tag ≠ m.tag then s
    else if s.ctxState n x = 4 then s.setCtx n x { c with heldWake := some m }
    else (s.reclaim n).endWait n x w m.status

/-- The input slot by which a packet that awaits service has come: port + 1, or 0 for one of this node's own (R341). -/
def State.arrivalSlot (s : State) (p : Packet) : Nat :=
  ((s.link.arrivals.find? (fun e => e.2 == p)).map (·.1)).getD 0

/-- The state with a packet that has left the torus taken for service. -/
def State.takeArrival (s : State) (p : Packet) : State :=
  { s with link := { s.link with arrivals := s.link.arrivals.eraseP (fun e => e.2 == p) } }

/-- A context waits under a tag. -/
def Core.waitsOn (k : Core) (x tag : Nat) : Bool :=
  match (k.ctx x).wait with
  | none => false
  | some w => w.tag == tag

/-- The WAKE packet that brings a wake from another node (R243, R333): its TAG and STATUS are those of the message, and
the message names the context that waits under that tag, when one does. -/
def State.wakePacket (s : State) (w : WakeMsg) : Option Packet :=
  if s.cores.any (fun e => e.2.waitsOn 0 w.tag || e.2.waitsOn 1 w.tag) && !(s.core w.core.val).waitsOn w.ctx.val w.tag then none
  else (s.link.arrivals.map (·.2)).find? (fun p => pktType p == 0x0C && pktTag p == w.tag && pktStatus p == w.status)

/-- WAKE (R243). -/
def execWake (w : WakeMsg) (s : State) : Res :=
  if s.sync.wakes.contains w then
    happens s.live (({ s with sync := { s.sync with wakes := s.sync.wakes.erase w } } : State).deliverWake w)
  else
    match s.wakePacket w with
    | none => .fault .notEnabled
    | some p => happens s.live ((s.takeArrival p).deliverWake w)

/-- The answer to a cancel that freed a watch, or to one of another node (R245, R519); nobody is woken for a context that
has faulted, halted or been reset (R248). -/
def State.answerCancel (s : State) (die : Nat) (c : CancelMsg) (held : Bool) : State :=
  if c.node = s.nodeId then
    if held && !c.gone then
      { s with sync := { s.sync with wakes := s.sync.wakes ++
          [{ core := Fin.ofNat 144 c.core, ctx := Fin.ofNat 2 c.ctx, tag := c.tag, status := 0x42 }] } }
    else s
  else s.sendPacket die (s.mkPacket c.node 0x0C 0 c.tag c.addr ((if held then 0x42 else 0) * 2 ^ 24) 0 [])

/-- CANCEL (R245, R248): served after the request it withdraws; a wait ends with TIMEOUT only where the cancel was sent for
its timeout. -/
def execCancel (die : DieId) (c : CancelMsg) (s : State) : Res :=
  let d := die.val
  let open_ := s.sync.reqs.any (fun r => r.die == d && r.node == c.node && r.core == c.core && r.ctx == c.ctx && r.tag == c.tag)
  let s1 : State := { s with sync := { s.sync with cancels := s.sync.cancels.erase (d, c) } }
  let r := s1.freeWatch (144 + d) c.node c.core c.ctx c.tag
  let t := if r.1 && !c.gone then r.2.timedOut (144 + d) else r.2
  occurs (s.live && s.sync.cancels.contains (d, c) && !open_) (t.answerCancel d c r.1)

/-- The timeout of a wait expires (R245). -/
def State.expireWait (s : State) (n x : Nat) (w : WaitSt) : State :=
  let s := s.setCtx n x { s.ctx n x with wait := some { w with cancelled := true } }
  match w.die with
  | some _ => s.sendCancel n x w false
  | none =>
    let r := s.freeWatch n s.nodeId n x w.tag
    if r.1 then (r.2.timedOut n).endWait n x w 0x42 else r.2

/-- WATCH_TIMEOUT (R245). -/
def execWatchTimeout (core : CoreId) (ctx : CtxId) (s : State) : Res :=
  let n := core.val
  let x := ctx.val
  match (s.ctx n x).wait with
  | none => .fault .notEnabled
  | some w => happens (s.live && w.timed && w.isWait && !w.cancelled && s.ctxState n x == 1) (s.expireWait n x w)

/-- An engine signal is judged at its tally (R234). -/
def State.applySignal (s : State) (g : Signal) : State :=
  let owner := s.ctx g.core (s.coreOwner g.core 0 g.tally)
  if s.orphaned g.core 0 g.tally || owner.epoch != g.epoch then s.raise (pSYN g.core) 1
  else (s.addTally g.core g.tally 1 { node := s.nodeId, core := g.core, ctx := g.ctx, pc := g.pc, step := g.step }).2

/-- ENGINE_SIGNAL (R234). -/
def execEngineSignal (core : CoreId) (s : State) : Res :=
  match s.sync.signals.find? (fun g => g.core == core.val) with
  | none => .fault .notEnabled
  | some g => occurs s.live (({ s with sync := { s.sync with signals := s.sync.signals.erase g } } : State).applySignal g)

/-! ## SYN.HOST_OP (R251, R256) -/

/-- Objects of a kind that a unit holds (R232). -/
def objCount (unit kind : Nat) : Nat :=
  if unit < 144 then (if kind = 0 then 128 else 32) else (if kind = 0 then 8192 else 2048)

/-- The host releases an object's owner and clears ORPHANED, after its waiters (R247, R256). -/
def State.hostRelease (s : State) (unit kind idx : Nat) : State :=
  let s := s.releaseWaiters (objKey unit kind idx) 0x41
  s.setObj unit kind idx
    { s.obj unit kind idx with owned := false, orphaned := false, ownerNode := 0, ownerCore := 0, ownerCtx := 0, ownerEpoch := 0 }

/-- A write of SYN.HOST_OP. -/
def State.hostOp (s : State) (unit op kind idx amount : Nat) : Nat × State :=
  let a : Signaller := { node := s.nodeId, core := 0xFF, ctx := 0, pc := 0, step := s.stepNo }
  if objCount unit kind ≤ idx ∨ op = 3 ∨ (op = 2 ∧ unit < 144) ∨ (op < 2 ∧ op ≠ kind) ∨
      (op < 2 ∧ amount = 0) ∨ (op = 1 ∧ 2 ^ 31 ≤ amount) then (cRANGE, s)
  else if s.fixedRun && s.job == 2 then (cSTATE, s)
  else
    let s := if 144 ≤ unit then s.tookSlot (unit - 144) 300 else s
    match op with
    | 0 => s.addTally unit idx amount a
    | 1 => s.addPool unit idx amount a
    | _ => (cOK, s.hostRelease unit kind idx)

/-- SYN_HOST_ADD (R256, OP 0). -/
def execSynHostAdd (inst : Fin 148) (index : Fin 8192) (amount : BitVec 32) (s : State) : Res :=
  s.serveRow (pSYN inst.val) 0x178 .host (s.hostOp inst.val 0 0 index.val amount.toNat)

/-- SYN_HOST_PUT (R256, OP 1). -/
def execSynHostPut (inst : Fin 148) (index : Fin 8192) (amount : BitVec 32) (s : State) : Res :=
  s.serveRow (pSYN inst.val) 0x178 .host (s.hostOp inst.val 1 1 index.val amount.toNat)

/-- SYN_HOST_RELEASE (R256, OP 2). -/
def execSynHostRelease (inst : Fin 148) (kind : Bool) (index : Fin 8192) (s : State) : Res :=
  s.serveRow (pSYN inst.val) 0x178 .host (s.hostOp inst.val 2 (b2n kind) index.val 0)

/-! ## The view of one object (R256) -/

/-- SYN.OBJ of an object. -/
def State.synObj (s : State) (unit kind idx : Nat) : Nat :=
  let o := s.obj unit kind idx
  let flags := 8 * b2n o.wrap + 4 * b2n (s.orphaned unit kind idx)
  if unit < 144 then
    let x := s.coreOwner unit kind idx
    (s.ctx unit x).ownEpoch * 2 ^ 48 + s.nodeId * 2 ^ 33 + unit * 2 ^ 25 + x * 2 ^ 24 + flags + 2
  else o.ownerEpoch * 2 ^ 48 + o.ownerNode * 2 ^ 33 + o.ownerCore * 2 ^ 25 + o.ownerCtx * 2 ^ 24 + flags + 2 * b2n o.owned

/-- SYN.WAITER of a waiter. -/
def Waiter.word (w : Waiter) : Nat := 2 ^ 39 + w.node * 2 ^ 24 + w.core * 2 ^ 16 + w.ctx * 2 ^ 15

/-- The view registers 0x108 to 0x170 of an object. -/
def State.synView (s : State) (unit kind idx : Nat) : List Word :=
  let o := s.obj unit kind idx
  let count := o.waiters.length
  let last : Nat := if o.lastValid then o.lastNode * 2 ^ 25 + o.lastCore * 2 ^ 17 + o.lastCtx * 2 ^ 16 + 1 else 0
  let ws := (List.range 8).map (fun i => match o.waiters[i]? with
    | none => 0
    | some w => w.word)
  ([o.value, s.synObj unit kind idx, b2n (decide (8 < count)) * 2 ^ 16 + min count 65535] ++ ws ++
    [last, o.lastPc, o.lastStep]).map (BitVec.ofNat 64)

/-- The object that SYN.SEL of a page selects: kind and index. -/
def State.synSel (s : State) (unit : Nat) : Nat × Nat := (s.rf (pSYN unit) 0x100 13 13, s.rf (pSYN unit) 0x100 12 0)

/-- A read of a view register: captured by SNAP, or live. -/
def State.readView (s : State) (unit off : Nat) : Word :=
  let v := match Tab.find s.sync.views unit with
    | some l => l
    | none => s.synView unit (s.synSel unit).1 (s.synSel unit).2
  v.getD ((off - 0x108) / 8) 0

/-- A write of SYN.SEL. -/
def State.writeSel (s : State) (unit : Nat) (v : Word) : Nat × State :=
  let kind := fld v 13 13
  let idx := fld v 12 0
  if objCount unit kind ≤ idx then (cRANGE, s)
  else
    let s := s.setReg (pSYN unit) 0x100 (v &&& mask 13 0)
    let views := if bitAt v 14 then Tab.put s.sync.views unit (s.synView unit kind idx) else Tab.del s.sync.views unit
    (cOK, { s with sync := { s.sync with views := views } })

/-- A write of SYN.VALUE. -/
def State.writeValue (s : State) (unit : Nat) (v : Word) : Nat × State :=
  let kind := (s.synSel unit).1
  let idx := (s.synSel unit).2
  if s.jobBusy then (cLOCKED, s)
  else if kind = 1 ∧ 2 ^ 31 ≤ fld v 31 0 then (cRANGE, s)
  else if kind = 1 then (cOK, s.setObj unit kind idx { s.obj unit kind idx with value := fld v 31 0 })
  else (cOK, s.setObj unit kind idx { s.obj unit kind idx with value := v.toNat, wrap := false })

/-- SYN_SEL_WRITE (R256). -/
def execSynSelWrite (inst : Fin 148) (value : Word) (src : Src) (s : State) : Res :=
  s.serveRow (pSYN inst.val) 0x100 src (s.writeSel inst.val value)

/-- SYN_VALUE_WRITE (R235, R256). -/
def execSynValueWrite (inst : Fin 148) (value : Word) (s : State) : Res :=
  s.serveRow (pSYN inst.val) 0x108 .host (s.writeValue inst.val value)

/-! ## SYNC packets (R333, R519) -/

/-- A request that a SYNC packet brings by an input slot; the slots of the ports follow those of the contexts (R250). -/
def syncReqOf (p : Packet) (inSlot : Nat) : SyncReq :=
  let byte (i n : Nat) := leNat ((p.payload.drop i).take n)
  let who := byte 16 8
  let op := 0x50 + fld p.w2 63 60
  { die := fld p.w1 37 36, op := op, kind := fld p.w1 13 13, index := fld p.w1 12 0,
    amount := if op = 0x51 then p.w3.toNat else fld p.w3 31 0, rel := (byte 24 1).testBit 0, waits := (byte 24 1).testBit 1,
    node := pktSrc p, core := who % 256, ctx := who / 256 % 2, epoch := who / 65536 % 65536, tag := pktTag p,
    pc := byte 0 6, step := byte 8 8, slot := 288 + (inSlot - 1) }

/-- A sync request of another node reaches this one: a wait or a cancel waits for its unit, the rest is
applied and answered by a WAKE. -/
def State.takeSync (s : State) (p : Packet) (inSlot : Nat) : State :=
  let r := syncReqOf p inSlot
  let die := r.die
  let scope := fld p.w1 33 32
  if ((p.payload.getD 24 0).toNat).testBit 2 then
    { s with sync := { s.sync with cancels := s.sync.cancels ++
        [(die, { node := r.node, core := r.core, ctx := r.ctx, epoch := r.epoch, tag := r.tag, addr := pktAddr p })] } }
  else if scope = 1 ∧ (r.op = 0x51 ∨ (r.op = 0x53 ∧ r.waits)) then
    { s with sync := { s.sync with reqs := s.sync.reqs ++ [r] } }
  else
    let core := fld p.w1 47 40
    let unit := if scope = 0 then core else 144 + die
    let a := if scope = 0 ∧ (144 ≤ core ∨ objCount unit r.kind ≤ r.index) then (cRANGE, s)
      else (if scope = 1 then s.tookSlot die r.slot else s).applySync unit r.op r.kind r.index r.amount r.epoch
        { node := r.node, core := r.core, ctx := r.ctx, pc := r.pc, step := r.step }
    let w := if scope = 0 then dieOf core else die
    a.2.sendPacket w (a.2.mkPacket r.node 0x0C 0 r.tag (pktAddr p) (a.1 * 2 ^ 24) 0 [])

/-- SYNC (R333, R519). -/
def execSync (p : Packet) (s : State) : Res :=
  wellFormed (pktOk 0x04 1 1 p) (happens s.live ((s.takeArrival p).takeSync p (s.arrivalSlot p)))

end Sys2Proof.Machine
end

