-- ==== Sys2Proof/Machine/Collective.lean ====
section
/-! DEFINITION. The collective engines: reduce and gather along an axis, the verdict that rides on them, their
start, completion and timeout (R350 to R360, R370). -/

namespace Sys2Proof.Machine

/-! ## Runs -/

/-- The collective in progress on an engine's axis. -/
def State.collRun (s : State) (die ax : Nat) : Option CollRun := (s.coll.run.find? (fun e => e.1 == 3 * die + ax)).map (·.2)

/-- The state with the collective of an engine's axis set. -/
def State.setCollRun (s : State) (die ax : Nat) (r : CollRun) : State :=
  { s with coll := { s.coll with
      run := s.coll.run.map (fun e => if e.1 = 3 * die + ax then (e.1, r) else e) } }

/-- Position of this node on an axis (R350). -/
def State.collPos (s : State) (ax : Nat) : Nat := s.slicePos ax (coordOf s.nodeId ax)

/-- The node at a position of this node's line. -/
def State.nodeAt (s : State) (ax p : Nat) : Nat := withCoord s.nodeId ax ((s.sOrg ax + p) % s.mExt ax)

/-- Bytes of an element. -/
def CollJob.esz (j : CollJob) : Nat := if j.mode = 0 then 4 else 8

/-- The collective carries the verdict: no verdict reduction runs in an evaluation, or for a job with an HK1
(R221, R230). -/
def State.carries (s : State) (j : CollJob) : Bool := j.last && s.genBase != 2 && !s.evalActive

/-- The reductions on the axes before `ax` are complete on this node (R357). -/
def State.earlierDone (s : State) (ax : Nat) : Bool :=
  s.verdictAxes.all (fun b => decide (ax ≤ b) || s.step.axesDone.contains b)

/-- The reduction on an axis is complete on this node. -/
def State.axisReduced (s : State) (ax : Nat) (r : VRec) : State :=
  { s with step := { s.step with
      axesDone := insSet s.step.axesDone ax
      acc := some r } }

/-- Elements of DST that a collective writes. -/
def collTarget (j : CollJob) (n : Nat) : Nat := if j.op = 1 then j.n / n else j.n

/-- Every element of DST is written, the reduce part is done and the verdict is held (R357, R359). -/
def State.collDone (s : State) (r : CollRun) : Bool :=
  let n := s.sExt r.job.axis
  r.begun && decide (collTarget r.job n ≤ r.written) && (decide (2 ≤ r.job.op) || n == 1 || decide (r.job.n ≤ r.folded)) &&
    (!s.carries r.job || r.recFinal)

/-! ## Elements (R352, R353, R355, R358) -/

/-- Elements of a little-endian byte string. -/
def elemsOf (sz : Nat) (bs : List Byte) : List Word :=
  (List.range (bs.length / sz)).map (fun i => BitVec.ofNat 64 (leNat ((bs.drop (sz * i)).take sz)))

/-- What a poisoned element enters as. -/
def poisonElem (j : CollJob) : Word := if j.mode = 0 then BitVec.ofNat 64 0x7fc00000 else narWord

/-- An element of position 0, or of a copy, as it enters the sum. -/
def firstElem (j : CollJob) (w : Word) : Word :=
  if j.mode = 0 then BitVec.ofNat 64 (canon (BitVec.ofNat 32 w.toNat)).toNat else w

/-- One position's addition, and whether a ring sum is non-finite or overflows. -/
def foldElem (j : CollJob) (acc own : Word) : Word × Bool :=
  if j.mode = 0 then
    let r := faddTz (BitVec.ofNat 32 acc.toNat) (canon (BitVec.ofNat 32 own.toNat))
    let k := (decodeF r.1).k
    (BitVec.ofNat 64 r.1.toNat, r.2.contains 0 || k == .inf || k == .nan)
  else ((a64Add acc own).1, false)

/-- Payload bytes of elements, and RAW: EXACT words pack only in whole groups of 16 (R355). -/
def packElems (j : CollJob) (ws : List Word) : Bool × List Byte :=
  if j.mode = 0 then (false, ws.flatMap (fun w => natLe 4 w.toNat))
  else if ws.length % 16 ≠ 0 then (true, ws.flatMap (fun w => natLe 8 w.toNat))
  else
    let gs := (List.range (ws.length / 16)).map (fun i => pack16 ((ws.drop (16 * i)).take 16))
    if gs.all (·.isSome) then (false, gs.flatMap (fun g => match g with
      | none => []
      | some q => packUnit q.1 q.2))
    else (true, ws.flatMap (fun w => natLe 8 w.toNat))

/-- Elements of a payload. -/
def unpackElems (j : CollJob) (raw : Bool) (bs : List Byte) : List Word :=
  if j.mode = 0 then elemsOf 4 bs
  else if raw then elemsOf 8 bs
  else (List.range (bs.length / 64)).flatMap (fun i => unpackUnit ((bs.drop (64 * i)).take 64))

/-- Source elements from index `i` on, `k` of them: none while the read must wait, else a code, the elements, whether
any was poisoned, and the state. -/
def State.srcElems (s : State) (j : CollJob) (i k : Nat) : Option (Nat × List Word × Bool × State) :=
  let a := j.src + i * j.esz
  let lines := memLines a (k * j.esz)
  if (s.heldIn a (k * j.esz)).isSome || s.closing a (k * j.esz) then none
  else
    match lines.find? (fun l => s.placeCode (l * 64) != cOK) with
    | some l => some (s.placeCode (l * 64), [], false, s)
    | none =>
      let s := lines.foldl (fun (s : State) (l : Nat) => (s.readReq (l * 64) 64 (some 0)).2) s
      let bad := lines.filter (fun l => s.lineBad l)
      let ws := elemsOf j.esz (s.bytes a (k * j.esz))
      some (cOK, (List.range ws.length).map (fun e =>
        if bad.contains ((a + e * j.esz) / 64) then poisonElem j else ws.getD e 0), bad != [], s)

/-- Bytes are written at DST, line by line: none while a write must wait, else a code and the state. -/
def State.dstWrite (s : State) (j : CollJob) (i : Nat) (bs : List Byte) : Option (Nat × State) :=
  let a := j.dst + i * j.esz
  match j.by_ with
  | none => some (cOK, s)
  | some b =>
    (List.range (ceilDiv bs.length 64)).foldl (fun (acc : Option (Nat × State)) k =>
      match acc with
      | none => none
      | some (c, s) =>
        if c ≠ cOK then some (c, s)
        else
          let at_ := a + 64 * k
          let id := if (s.copyAt at_ 64).isSome then b.2.2.txn else none
          s.ctxWrite b.1 b.2.1 id at_ ((bs.drop (64 * k)).take 64) false) (some (cOK, s))

/-! ## Packets (R354, R356, R357) -/

/-- NONFINITE of a packet of a collective. -/
def State.nfBit (s : State) (r : CollRun) : Bool := r.job.grad && (r.nf || bitAt (s.reg pCFE 0x1D0) 0)

/-- The verdict unit (R357). -/
def VRec.unit (r : VRec) : List Byte := natLe 8 r.flags ++ natLe 8 r.smin ++ natLe 8 r.smax ++ natLe 40 0

/-- The record of a verdict unit. -/
def vrecOf (bs : List Byte) : VRec :=
  { flags := leNat (bs.take 8), smin := leNat ((bs.drop 8).take 8), smax := leNat ((bs.drop 16).take 8) }

/-- A COLL packet leaves: PHASE, the destination, the hops of a multicast (0 for unicast) and its direction, OFFSET,
verdict, RAW, POISON and the payload without the verdict unit. -/
def State.sendColl (s : State) (die : Nat) (r : CollRun) (phase dst hops : Nat) (neg : Bool) (off : Nat) (v : Option VRec)
    (raw bad : Bool) (bs : List Byte) : State :=
  let j := r.job
  let payload := (match v with
    | none => []
    | some v => v.unit) ++ bs
  let w2 := b2n (s.nfBit r) * 2 ^ 23 + b2n bad * 2 ^ 22 +
    (if hops = 0 then 0 else 2 ^ 21 + j.axis * 2 ^ 19 + b2n neg * 2 ^ 18 + hops * 2 ^ 13) +
    b2n raw * 2 ^ 12 + b2n v.isSome * 2 ^ 11 + phase * 2 ^ 10 + s.collPos j.axis * 2 ^ 5
  let arg : Word := BitVec.ofNat 64 (j.id * 2 ^ 48 + j.op * 2 ^ 45 + j.mode * 2 ^ 44 + off)
  s.sendPacket die (s.mkPacket dst 0x10 (payload.length / 64 - 1) r.tag (regBase + 4096 * pCOL die) w2 arg payload)

/-- Elements that a packet covers at most. -/
def collCap (j : CollJob) (vrec : Bool) : Nat := (if j.mode = 0 then 2048 else 1024) - (if vrec then 16 else 0)

/-- The packets of a run of elements: offset, length, and whether it is the first. -/
def collCuts (j : CollJob) (fuel off len : Nat) (vrec first : Bool) : List (Nat × Nat × Bool) :=
  match fuel with
  | 0 => []
  | f + 1 =>
    if len = 0 then []
    else
      let k := min len (collCap j (vrec && first))
      (off, k, first) :: collCuts j f (off + k) (len - k) vrec false

/-- Elements are sent as a chunk: the first packet carries a verdict when one is given. -/
def State.sendChunk (s : State) (die : Nat) (r : CollRun) (phase dst hops : Nat) (neg : Bool) (off : Nat) (v : Option VRec)
    (ws : List Word) : State :=
  (collCuts r.job ws.length off ws.length v.isSome true).foldl (fun (s : State) (c : Nat × Nat × Bool) =>
    let p := packElems r.job ((ws.drop (c.1 - off)).take c.2.1)
    s.sendColl die r phase dst hops neg c.1 (if c.2.2 then v else none) p.1 false p.2) s

/-- Lines of source bytes are sent in both directions, EXACT words packed where they pack, poisoned lines alone (R333, R352,
R355, R358). -/
def State.sendLines (s : State) (die : Nat) (r : CollRun) (off : Nat) (bs : List Byte) (bad : List Bool) (up down : Nat) : State :=
  let ax := r.job.axis
  let p := s.collPos ax
  let per := 64 / r.job.esz
  let one (s : State) (i len : Nat) (b : Bool) : State :=
    let line := (bs.drop (64 * i)).take (64 * len)
    let unit := if r.job.mode = 0 then (false, line) else packElems r.job (elemsOf 8 line)
    let raw := unit.1
    let data := unit.2
    let s := if up = 0 then s else s.sendColl die r 1 (s.nodeAt ax (p + 1)) up false (off + i * per) none raw b data
    if down = 0 then s else s.sendColl die r 1 (s.nodeAt ax (p - 1)) down true (off + i * per) none raw b data
  let flush (s : State) (start len : Nat) : State := if len = 0 then s else one s start len false
  let z := (List.range bad.length).foldl (fun (acc : State × Nat × Nat) (i : Nat) =>
    if bad.getD i false then (one (flush acc.1 acc.2.1 acc.2.2) i 1 true, i + 1, 0)
    else if acc.2.2 = 127 then (one acc.1 acc.2.1 128 false, i + 1, 0)
    else (acc.1, acc.2.1, acc.2.2 + 1)) (s, 0, 0)
  flush z.1 z.2.1 z.2.2

/-! ## The end of a collective (R220, R359, R360) -/

/-- COL.ACTIVE follows the collectives in progress of a die. -/
def State.collRegs (s : State) (die : Nat) : State :=
  let v := (List.range 3).foldl (fun v ax => match s.collRun die ax with
    | none => v
    | some r => v + r.job.id * 2 ^ (16 * ax) + 2 ^ (48 + ax)) 0
  s.setReg (pCOL die) 0x110 (BitVec.ofNat 64 v)

/-- The collective leaves its engine. -/
def State.collGone (s : State) (die ax : Nat) : State :=
  ({ s with coll := { s.coll with run := s.coll.run.filter (fun e => e.1 != 3 * die + ax) } }).collRegs die

/-- A collective ends without completing: its record, its event, DST undefined, its context faulted, its late packets
dropped; a verdict reduction that it was to carry is left incomplete. -/
def State.collFail (s : State) (die ax : Nat) (r : CollRun) (code : Nat) (ev : Option Nat) : State :=
  let j := r.job
  let s := s.collGone die ax
  let s := match ev with
    | none => s
    | some b => (s.setReg (pCOL die) 0x130 (BitVec.ofNat 64 (2 ^ 63 + code * 2 ^ 16 + j.id))).raise (pCOL die) b
  let mine (w : Nat × Nat × Nat × Packet) : Bool := w.2.1 == die && w.2.2.1 == ax && fld w.2.2.2.w3 63 48 == j.id
  let late := s.coll.waiting.filter mine
  let s := (s.addReg (pRTR die) 0x140 late.length)
  let s := { s with coll := { s.coll with
      waiting := s.coll.waiting.filter (fun w => !mine w)
      dead := (die, ax, j.id) :: s.coll.dead } }
  let s := late.foldl (fun (s : State) (w : Nat × Nat × Nat × Packet) => s.collDrain w.1 w.2.2.2) s
  let s := if s.carries j && !r.recFinal then { s with step := { s.step with broken := true } } else s
  match j.by_ with
  | none => s
  | some b =>
    let s := s.undefine j.dst (j.dst + collTarget j (s.sExt ax) * j.esz)
    if (s.ctx b.1 b.2.1).fly.any (fun i => i.seq == b.2.2.seq && i.epoch == b.2.2.epoch) then
      (s.finishIns b.1 b.2.1 b.2.2).faultCtx b.1 b.2.1 { unit := 6, cls := 0x52, code := code, pc := b.2.2.pc }
    else s

/-! ## What a node does of itself (R352, R357) -/

/-- The node may send its verdict unit on the axis of a run. -/
def State.mayVerdict (s : State) (r : CollRun) : Bool := s.carries r.job && s.earlierDone r.job.axis

/-- The run with the verdict folded in at this position: the record to send on, and whether it is the final one. -/
def State.foldVerdict (s : State) (r : CollRun) (below : Option VRec) : VRec × CollRun × State :=
  let s := s.contribute
  let own := s.carriedRec
  let v := (match below with
    | none => own
    | some b => b.combine own)
  let top := s.collPos r.job.axis + 1 == s.sExt r.job.axis
  let s := if top then s.axisReduced r.job.axis v else s
  (v, { r with
    rec_ := some v
    recFinal := top
    sent := true }, s)

/-- The start of a run at this node: copies and packets that need nothing from another node. None while it must
wait. -/
def State.collBegin (s : State) (die : Nat) (r : CollRun) : Option State :=
  let j := r.job
  let ax := j.axis
  let n := s.sExt ax
  let p := s.collPos ax
  let put (s : State) (r : CollRun) : State := s.setCollRun die ax { r with begun := true }
  let fail (s : State) (c : Nat) : Option State := some (s.collFail die ax r c none)
  if n = 1 ∨ 2 ≤ j.op then
    let cnt := if n = 1 then j.n else if j.op = 2 then j.n / n else if p = j.root then j.n else 0
    let at_ := if j.op = 2 ∧ n ≠ 1 then p * cnt else 0
    match s.srcElems j 0 cnt with
    | none => none
    | some (c, ws, bad, s) =>
      if c ≠ cOK then fail s c
      else
        let keep := decide (2 ≤ j.op)
        let lines := memLines j.src (cnt * j.esz)
        let raw := s.bytes j.src (cnt * j.esz)
        let bads := if keep then lines.map (fun l => s.lineBad l) else []
        let bs := if keep then (if n = 1 ∧ j.mode = 0 then (elemsOf 4 raw).flatMap (fun w => natLe 4 (firstElem j w).toNat) else raw)
          else (ws.map (firstElem j)).flatMap (fun w => natLe j.esz w.toNat)
        match s.dstWrite j at_ bs with
        | none => none
        | some (c, s) =>
          if c ≠ cOK then fail s c
          else
            let s := (List.range bads.length).foldl (fun (s : State) (i : Nat) =>
              if bads.getD i false then s.poisonRange (j.dst + at_ * j.esz + 64 * i) 64 else s) s
            let s := if cnt = 0 ∨ n = 1 then s else s.sendLines die r at_ raw bads (n - 1 - p) p
            some ((put s { r with
              written := cnt
              recFinal := n == 1 }).raiseIf bad (pCOL die) 3)
  else if p ≠ 0 then some (put s r)
  else if s.carries j && !s.mayVerdict r then none
  else
    match s.srcElems j 0 j.n with
    | none => none
    | some (c, ws, bad, s) =>
      if c ≠ cOK then fail s c
      else
        let z := if s.carries j then (let t := s.foldVerdict r none; (some t.1, t.2.1, t.2.2)) else (none, r, s)
        let s := z.2.2.sendChunk die z.2.1 0 (z.2.2.nodeAt ax 1) 0 false 0 z.1 (ws.map (firstElem j))
        let s := if j.n = 0 then s.sendColl die z.2.1 0 (s.nodeAt ax 1) 0 false 0 z.1 false false [] else s
        some ((put s { z.2.1 with folded := j.n }).raiseIf bad (pCOL die) 3)

/-- The verdict of ALLGATHER and BROADCAST starts at position 0 once it may. -/
def State.collVerdict0 (s : State) (die : Nat) (r : CollRun) : State :=
  let ax := r.job.axis
  if r.begun && decide (2 ≤ r.job.op) && !r.sent && s.mayVerdict r && s.collPos ax == 0 && s.sExt ax != 1 then
    let t := s.foldVerdict r none
    (t.2.2.sendColl die t.2.1 0 (t.2.2.nodeAt ax 1) 0 false 0 (some t.1) false false []).setCollRun die ax t.2.1
  else s

/-! ## A packet at the engine (R352 to R360) -/

/-- A packet taken apart. -/
structure CollPkt where
  id : Nat
  op : Nat
  mode : Nat
  off : Nat
  phase : Nat
  nf : Bool
  bad : Bool
  rec_ : Option VRec
  words : List Word
  data : List Byte
  deriving DecidableEq, Repr

/-- The packet as the engine of a job reads it. -/
def collPkt (j : CollJob) (p : Packet) : CollPkt :=
  let v := bitAt p.w2 11
  let bs := if v then p.payload.drop 64 else p.payload
  let raw := bitAt p.w2 12
  { id := fld p.w3 63 48, op := fld p.w3 47 45, mode := fld p.w3 44 44, off := fld p.w3 39 0, phase := fld p.w2 10 10,
    nf := bitAt p.w2 23, bad := bitAt p.w2 22, rec_ := if v then some (vrecOf p.payload) else none,
    words := unpackElems j raw bs,
    data := if j.mode = 1 ∧ !raw then (unpackElems j false bs).flatMap (fun w => natLe 8 w.toNat) else bs }

/-- The verdict part of a packet: the record that a reduce packet goes on with, the run and the state; none while an
earlier axis is not reduced. -/
def State.takeVerdict (s : State) (r : CollRun) (k : CollPkt) : Option (Option VRec × CollRun × State) :=
  match k.rec_ with
  | none => some (none, r, s)
  | some v =>
    if !s.carries r.job then some (none, r, s)
    else if k.phase = 1 then
      let s := s.contribute
      some (none, { r with
        rec_ := some v
        recFinal := true }, s.axisReduced r.job.axis v)
    else if !s.mayVerdict r then none
    else
      let t := s.foldVerdict r (some v)
      some (some t.1, t.2.1, t.2.2)

/-- Chunks of a REDUCESCATTER that are complete at the last position are sent, or written when they are its own: a
code and the state, none while a write must wait. -/
def State.sendSums (s : State) (die : Nat) (r : CollRun) (fuel : Nat) : Option (Nat × CollRun × State) :=
  match fuel with
  | 0 => some (cOK, r, s)
  | f + 1 =>
    let j := r.job
    let n := s.sExt j.axis
    let c := j.n / n
    let q := (r.folded - r.buf.length) / c
    if r.buf.length < c ∨ c = 0 then some (cOK, r, s)
    else
      let ws := r.buf.take c
      let r' : CollRun := { r with buf := r.buf.drop c }
      if q + 1 = n then
        match s.dstWrite j 0 (ws.flatMap (fun w => natLe j.esz w.toNat)) with
        | none => none
        | some (code, s) => some (code, { r' with written := c }, s)
      else
        (s.sendChunk die r' 1 (s.nodeAt j.axis q) 0 false (q * c) (if s.carries j then r.rec_ else none) ws).sendSums die r' f

/-- A reduce packet is folded and goes on; at the last position it is a result. -/
def State.collReduce (s : State) (die : Nat) (r : CollRun) (k : CollPkt) : Option (Nat × State) :=
  let j := r.job
  let ax := j.axis
  let p := s.collPos ax
  let n := s.sExt ax
  match s.takeVerdict r k with
  | none => none
  | some (v, r, s) =>
    if k.words = [] then
      let s := (match v with
        | none => s
        | some v => if p + 1 = n then s.sendColl die r 1 (s.nodeAt ax (n - 2)) (n - 1) true 0 (some v) false false []
            else s.sendColl die r 0 (s.nodeAt ax (p + 1)) 0 false 0 (some v) false false [])
      some (cOK, s.setCollRun die ax r)
    else
      match s.srcElems j k.off k.words.length with
      | none => none
      | some (c, own, bad, s) =>
        if c ≠ cOK then some (c, s)
        else
          let ins := if k.bad then k.words.map (fun _ => poisonElem j) else k.words
          let sums := (ins.zip own).map (fun e => foldElem j e.1 e.2)
          let odd := sums.any (·.2)
          let s := (s.verdictSrc 11 odd).raiseIf (bad || k.bad) (pCOL die) 3
          let r := { r with
            folded := max r.folded (k.off + k.words.length)
            nf := r.nf || (odd && bitAt (s.reg pCFE 0x1D8) 11) }
          let ws := sums.map (·.1)
          if p + 1 < n then some (cOK, (s.sendChunk die r 0 (s.nodeAt ax (p + 1)) 0 false k.off v ws).setCollRun die ax r)
          else if j.op = 0 then
            match s.dstWrite j k.off (ws.flatMap (fun w => natLe j.esz w.toNat)) with
            | none => none
            | some (c, s) =>
              if c ≠ cOK then some (c, s)
              else
                let r := { r with written := r.written + ws.length }
                some (cOK, (s.sendChunk die r 1 (s.nodeAt ax (p - 1)) (n - 1) true k.off v ws).setCollRun die ax r)
          else
            let r := { r with buf := r.buf ++ ws }
            match s.sendSums die r n with
            | none => none
            | some (c, r, s) => some (c, s.setCollRun die ax r)

/-- A gather or distribution packet is written at DST. -/
def State.collGather (s : State) (die : Nat) (r : CollRun) (k : CollPkt) : Option (Nat × State) :=
  let j := r.job
  match s.takeVerdict r k with
  | none => none
  | some (_, r, s) =>
    let keep := decide (2 ≤ j.op)
    let cnt := if keep then k.data.length / j.esz else k.words.length
    let at_ := if j.op = 1 then k.off - s.collPos j.axis * (j.n / s.sExt j.axis) else k.off
    let ws := if k.bad && !keep then k.words.map (fun _ => poisonElem j) else k.words
    match s.dstWrite j at_ (if keep then k.data else ws.flatMap (fun w => natLe j.esz w.toNat)) with
    | none => none
    | some (c, s) =>
      if c ≠ cOK then some (c, s)
      else
        let s := if k.bad && keep then s.poisonRange (j.dst + at_ * j.esz) k.data.length else s
        some (cOK, (s.setCollRun die j.axis { r with written := r.written + cnt }).raiseIf k.bad (pCOL die) 3)

/-- A packet of a collective in progress: none while it must wait. -/
def State.collTake (s : State) (die : Nat) (r : CollRun) (p : Packet) : Option State :=
  let j := r.job
  let k := collPkt j p
  let cnt := if 2 ≤ j.op then k.data.length / j.esz else k.words.length
  if k.op ≠ j.op ∨ k.mode ≠ j.mode ∨ j.n < k.off + cnt ∨ (cnt ≠ 0 ∧ j.n ≤ k.off) then
    some (s.collFail die j.axis r 0x41 (some 1))
  else if !r.begun then none
  else
    let nf := j.grad && k.nf
    let r := { r with nf := r.nf || nf }
    let s := if nf then s.verdictRecv else s
    let s := s.setCollRun die j.axis r
    match (if k.phase = 0 then s.collReduce die r k else s.collGather die r k) with
    | none => none
    | some (c, s) => if c = cOK then some s else some (s.collFail die j.axis r c none)

/-! ## The pump of the engines -/

/-- What a waiting COLL packet waits in, and keeps later ones from passing: the VC2 buffer of its port, or for one that came
by none its engine's axis (R351). -/
def collPlace (w : Nat × Nat × Nat × Packet) : Nat := if w.1 = 0 then 100 + 3 * w.2.1 + w.2.2.1 else w.1

/-- Packets that wait are taken when they can be, oldest first of each port; runs begin. -/
def State.collRound (s : State) : State :=
  let s := s.coll.run.foldl (fun (s : State) (e : Nat × CollRun) =>
    match s.collRun (e.1 / 3) (e.1 % 3) with
    | none => s
    | some r =>
      let s := if r.begun then s else (s.collBegin (e.1 / 3) r).getD s
      match s.collRun (e.1 / 3) (e.1 % 3) with
      | none => s
      | some r => s.collVerdict0 (e.1 / 3) r) s
  let ws := s.coll.waiting
  (ws.foldl (fun (acc : State × List Nat) (w : Nat × Nat × Nat × Packet) =>
    let stay : State × List Nat := (acc.1, collPlace w :: acc.2)
    match acc.2.contains (collPlace w) || !acc.1.coll.waiting.contains w, acc.1.collRun w.2.1 w.2.2.1 with
    | false, some r =>
      if r.job.id ≠ fld w.2.2.2.w3 63 48 then stay
      else
        (match acc.1.collTake w.2.1 r w.2.2.2 with
        | none => stay
        | some t =>
          (if t.coll.waiting.contains w then
            ({ t with coll := { t.coll with waiting := t.coll.waiting.erase w } } : State).collDrain w.1 w.2.2.2
          else t, acc.2))
    | _, _ => stay) (s, [])).1

/-- `n` rounds of the engines. -/
def State.collRounds (s : State) (n : Nat) : State :=
  match n with
  | 0 => s
  | k + 1 => (s.collRound).collRounds k

/-- The engines go on as far as they can. -/
def State.collPump (s : State) : State := s.collRounds (s.coll.waiting.length + s.coll.run.length + 1)

/-! ## The rows -/

/-- A collective instruction is decoded. -/
def State.issueColl (s : State) (own : Nat) (i : Issue) : Res :=
  let n := i.core.val
  let x := i.ctx.val
  wellFormed (collOk own i.desc && opOk collGap 0x70 i.desc)
    (s.issue i 3 6 0x52 (s.collRefusal n x i.desc) [])

/-- ALLREDUCE (R352, R366). -/
def execAllreduce (i : Issue) (s : State) : Res := s.issueColl 0 i
/-- REDUCESCATTER (R352, R366). -/
def execReducescatter (i : Issue) (s : State) : Res := s.issueColl 1 i
/-- ALLGATHER (R352, R366). -/
def execAllgather (i : Issue) (s : State) : Res := s.issueColl 2 i
/-- BROADCAST (R352, R366). -/
def execBroadcast (i : Issue) (s : State) : Res := s.issueColl 3 i

/-- COLLECTIVE_START (R351): the next collective of an axis starts; where none can, what waited for memory goes on. -/
def execCollectiveStart (die : DieId) (axis : AxisId) (s : State) : Res :=
  let d := die.val
  let ax := axis.val
  match s.coll.queue.find? (fun e => e.1 == d && e.2.axis == ax), s.collRun d ax with
  | some e, none =>
    let t := s.newTag
    let r : CollRun := { job := e.2, tag := t.1 }
    let u := t.2
    let u : State := { u with coll := { u.coll with
        queue := u.coll.queue.erase e
        run := u.coll.run ++ [(3 * d + ax, r)]
        dead := u.coll.dead.filter (fun k => k != (d, ax, e.2.id)) } }
    let f := (u.collRegs d).inject (pCOL d) 1
    happens s.live ((if f.1 then (f.2.collFail d ax r 0x40 (some 0)).contained else f.2).collPump)
  | _, _ =>
    let t := s.collPump
    happens (s.live && decide (t ≠ s)) t

/-- A packet can be for the engine of a die on an axis (R351, R354): ADDR names the COL page of its die, and the sender
lies on the line of the axis, so that it differs from this node in no other coordinate. -/
def State.collFor (s : State) (d ax : Nat) (p : Packet) : Bool :=
  let page := pktAddr p / 4096 - regBase / 4096
  (!((List.range 4).any (fun e => pCOL e == page)) || page == pCOL d) &&
    (List.range 3).all (fun k => k == ax || coordOf (pktSrc p) k == coordOf s.nodeId k)

/-- COLL: a packet reaches the engine of a die on an axis (R354). A packet of a collective that has not started waits in the
input buffer of its port (R351); one of a collective that has ended without completing is dropped. -/
def execColl (die : DieId) (axis : AxisId) (p : Packet) (s : State) : Res :=
  let d := die.val
  let ax := axis.val
  let t := s.takeArrival p
  wellFormed (pktOk 0x10 1 128 p)
    (happens (s.live && s.collFor d ax p)
      (let slot := s.arrivalSlot p
      if s.coll.dead.contains (d, ax, fld p.w3 63 48) then (t.addReg (pRTR d) 0x140 1).collDrain slot p
      else ({ t with coll := { t.coll with waiting := t.coll.waiting ++ [(slot, d, ax, p)] } }).collPump))

/-- COLLECTIVE_COMPLETE (R359). -/
def execCollectiveComplete (die : DieId) (axis : AxisId) (s : State) : Res :=
  let s := if s.live then s.collPump else s
  let d := die.val
  let ax := axis.val
  match s.collRun d ax with
  | none => .fault .notEnabled
  | some r =>
    let t := (s.collGone d ax).addReg (pCOL d) 0x128 1
    let t := (match r.job.by_ with
      | none => t
      | some b =>
        if (t.ctx b.1 b.2.1).fly.any (fun i => i.seq == b.2.2.seq && i.epoch == b.2.2.epoch) then
          (t.finishIns b.1 b.2.1 b.2.2).signalTally b.1 b.2.1 b.2.2
        else t)
    happens (s.live && s.collDone r) t.collPump

/-- COLLECTIVE_TIMEOUT (R220, R278, R359): a completion in the same instant wins. -/
def execCollectiveTimeout (die : DieId) (axis : AxisId) (s : State) : Res :=
  let d := die.val
  let ax := axis.val
  match s.collRun d ax with
  | none => .fault .notEnabled
  | some r => happens (s.live && !s.collDone r) ((s.collFail d ax r 0x40 (some 0)).contained.collPump)

end Sys2Proof.Machine
end

