-- ==== Sys2Proof/Machine/Tensor.lean ====
section
/-! DEFINITION. Tensor operands in core store that the quantiser and the vector engine read and write: where
their elements and scales lie, how an element is brought to FP32, how values are written through quant, what
their block tags must match (R80, R84, R89 to R95, R99 to R104, R163, R189). -/

namespace Sys2Proof.Machine

/-- A tensor operand: `rows` rows of `cols` elements from `addr` on, spaced by `pitch`, limb planes spaced by
`plane`, scales or row records at `scale`, codebook at `cb`. -/
structure Opnd where
  f : Fmt
  addr : Nat
  pitch : Nat
  plane : Nat
  scale : Nat
  rows : Nat
  cols : Nat
  cb : Nat
  deriving DecidableEq, Repr

/-! ## Places -/

/-- Blocks that have an E8 (R90). -/
def Opnd.blocks (o : Opnd) : Nat :=
  if o.f.b = 0 then 0 else if o.f.col then o.rows / o.f.b * o.cols else o.rows * (o.cols / o.f.b)

/-- The units that quant is applied to: blocks, or rows of an unscaled operand (R103). -/
def Opnd.units (o : Opnd) : Nat := if o.f.b = 0 then o.rows else o.blocks

/-- The unit of an element. -/
def Opnd.unitOf (o : Opnd) (r c : Nat) : Nat := if o.f.b = 0 then r else ordinal r c o.f.b o.f.col o.cols

/-- The place of an element in its unit. -/
def Opnd.placeIn (o : Opnd) (r c : Nat) : Nat := if o.f.b = 0 then c else if o.f.col then r % o.f.b else c % o.f.b

/-- The elements of a unit, row and column, in ascending order. -/
def Opnd.members (o : Opnd) (u : Nat) : List (Nat × Nat) :=
  if o.f.b = 0 then (List.range o.cols).map (fun c => (u, c))
  else if o.f.col then (List.range o.f.b).map (fun i => (u / o.cols * o.f.b + i, u % o.cols))
  else
    let per := o.cols / o.f.b
    (List.range o.f.b).map (fun i => (u / per, u % per * o.f.b + i))

/-- Bytes of a row in one plane. -/
def Opnd.rowLen (o : Opnd) : Nat := o.f.rowBytes o.cols

/-- Byte ranges of the data. -/
def Opnd.data (o : Opnd) : List (Nat × Nat) :=
  (List.range o.f.code.planes).flatMap (fun p => (List.range o.rows).map (fun r =>
    (o.addr + p * o.plane + r * o.pitch, o.rowLen)))

/-- Byte range of the scales or row records. -/
def Opnd.scales (o : Opnd) : List (Nat × Nat) :=
  if o.f.affine then [(o.scale, 16 * o.rows)] else if o.f.b = 0 then [] else [(o.scale, o.blocks)]

/-- The codebook, when there is one. -/
def Opnd.book (o : Opnd) : List (Nat × Nat) := if o.f.code = .cb4 then [(o.cb, 16)] else []

/-- Bytes of an element in each plane. -/
def Opnd.elemBytes (o : Opnd) (r c : Nat) : List (Nat × Nat) :=
  (List.range o.f.code.planes).map (fun p =>
    (o.addr + p * o.plane + r * o.pitch + c * o.f.code.bits / 8, max 1 (o.f.code.bits / 8)))

/-- Bytes of the scale or record of an element. -/
def Opnd.scaleBytes (o : Opnd) (r c : Nat) : List (Nat × Nat) :=
  if o.f.affine then [(o.scale + 16 * r, 16)] else if o.f.b = 0 then [] else [(o.scale + o.unitOf r c, 1)]

/-- The first element, in row and column order, that a line takes part in; the codebook and the like count with
element 0. -/
def Opnd.firstIn (o : Opnd) (line : Nat) : Option Nat :=
  let hit (rs : List (Nat × Nat)) : Bool := rs.any (fun r => (linesOf r.1 r.2).contains line)
  if hit o.book then some 0
  else if !(hit o.data || hit o.scales) then none
  else (List.range (o.rows * o.cols)).find? (fun e =>
    hit (o.elemBytes (e / o.cols) (e % o.cols) ++ o.scaleBytes (e / o.cols) (e % o.cols)))

/-- The first element of the block or row-affine row of an element: what is written together with it. -/
def Opnd.startOf (o : Opnd) (e : Nat) : Nat :=
  let r := e / o.cols
  let c := e % o.cols
  if o.f.affine then r * o.cols
  else if o.f.b = 0 then e
  else if o.f.col then r / o.f.b * o.f.b * o.cols
  else r * o.cols + c / o.f.b * o.f.b

/-- Byte ranges of what is written at element `e` and later, in row and column order. -/
def Opnd.fromElem (o : Opnd) (e : Nat) : List (Nat × Nat) :=
  let k := o.startOf e
  (rangeFrom k (o.rows * o.cols - k)).flatMap (fun i =>
    o.elemBytes (i / o.cols) (i % o.cols) ++ o.scaleBytes (i / o.cols) (i % o.cols))

/-! ## Reading (R97 to R102, R163, R189) -/

/-- A loaded element: its FP32 value, flags of the conversion by bit of VEC.EXC, and what it is. -/
structure Load where
  x : F32
  fl : Flags := []
  /-- NaR by code, by block or by record. -/
  nar : Bool := false
  /-- An infinite word, a NaN word of FP32 or BF16. -/
  inf : Bool := false
  nan : Bool := false
  deriving DecidableEq, Repr

/-- The raw code of an element, limbs combined. -/
def State.rawElem (s : State) (n : Nat) (o : Opnd) (r c : Nat) : Nat :=
  let a (p : Nat) : Nat := o.addr + p * o.plane + r * o.pitch
  match o.f.code with
  | .fp32 => s.storeNat n (a 0 + 4 * c) 4
  | .bf16 => s.storeNat n (a 0 + 2 * c) 2
  | _ =>
    if o.f.code.wide then
      (List.range o.f.code.planes).foldl (fun v p => v + s.storeByte n (a p + c) * 256 ^ p) 0
    else s.storeByte n (a 0 + c * o.f.code.bits / 8) / (if o.f.code.four && c % 2 == 1 then 16 else 1) %
      2 ^ o.f.code.bits

/-- The E8 of an element. -/
def State.elemE8 (s : State) (n : Nat) (o : Opnd) (r c : Nat) : Nat :=
  if o.f.b = 0 then 0x7F else s.storeByte n (o.scale + o.unitOf r c)

/-- An FP32 word as an operand: its canonical value, and whether it is infinite or NaN. -/
def loadWord (x : F32) : Load :=
  { x := canon x, inf := (decodeF x).k == .inf, nan := (decodeF x).k == .nan }

/-- An element brought to FP32; `hit` reads a float word as 0x7FC0_0000 (R517). -/
def State.loadElem (s : State) (n : Nat) (o : Opnd) (r c : Nat) (hit : Bool) : Load :=
  let raw := s.rawElem n o r c
  if o.f.affine then
    let p := s.rowRec n (o.scale + 16 * r)
    if p.nar then { x := nanF, nar := true }
    else if p.const then { x := canon p.c }
    else
      let v := affineToFp32 raw p.z p.sc
      { x := v.1, fl := v.2 }
  else
    match o.f.code with
    | .fp32 => loadWord (if hit then nanF else BitVec.ofNat 32 raw)
    | .bf16 => loadWord (if hit then nanF else fromBf16 raw)
    | _ =>
      let e := decodeElem o.f.code (fun i => s.storeByte n (o.cb + i)) raw
      let eb := s.elemE8 n o r c
      let v := toFp32 e.i e.nar eb
      { x := v.1, fl := flagIf v.2 0, nar := e.nar || eb == 255 }

/-- The occurrences of a point, `k` of them: which took effect. -/
def State.injectEach (s : State) (page pt k : Nat) : List Nat × State :=
  if s.rf page 0x048 1 0 = 0 ∨ s.rf page 0x048 15 8 ≠ pt then ([], s)
  else
    (List.range k).foldl (fun (acc : List Nat × State) (i : Nat) =>
      let r := acc.2.inject page pt
      (if r.1 then acc.1 ++ [i] else acc.1, r.2)) ([], s)

/-- All elements of an operand in row and column order, with the injections of a point at its float words. -/
def State.loadAll (s : State) (n : Nat) (o : Opnd) (page pt : Nat) : List Load × State :=
  let r := if o.f.code.isFloat then s.injectEach page pt (o.rows * o.cols) else ([], s)
  ((List.range (o.rows * o.cols)).map (fun e => s.loadElem n o (e / o.cols) (e % o.cols) (r.1.contains e)), r.2)

/-! ## Writing (R80, R84, R88, R100, R103, R189) -/

/-- Bytes of a row of raw codes in one plane: 4-bit codes in pairs, the first in bits [3:0]. -/
def planeBytes (c : Code) (p : Nat) (raws : List Nat) : List Byte :=
  match c with
  | .fp32 => raws.flatMap (fun v => natLe 4 v)
  | .bf16 => raws.flatMap (fun v => natLe 2 v)
  | _ =>
    if c.four then
      (List.range ((raws.length + 1) / 2)).map (fun i => BitVec.ofNat 8 (raws.getD (2 * i) 0 % 16 + raws.getD (2 * i + 1) 0 % 16 * 16))
    else raws.map (fun v => BitVec.ofNat 8 (v / 256 ^ p))

/-- What is written for an operand: bytes by core-store offset, the elements as quantised, and the E8 of each
block. -/
structure Made where
  writes : List (Nat × List Byte)
  elems : List QElem := []
  e8s : List Nat := []
  deriving DecidableEq, Repr

/-- The data of an operand from its raw codes in row and column order. -/
def Opnd.writeRaws (o : Opnd) (raws : List Nat) : List (Nat × List Byte) :=
  (List.range o.rows).flatMap (fun r =>
    let row := (raws.drop (r * o.cols)).take o.cols
    (List.range o.f.code.planes).map (fun p => (o.addr + p * o.plane + r * o.pitch, planeBytes o.f.code p row)))

/-- FP32 values in row and column order written to an operand: as they are, through to_bf16, or through quant. -/
def Opnd.make (o : Opnd) (given : Option Nat) (xs : List F32) : Made :=
  match o.f.code with
  | .fp32 => { writes := o.writeRaws (xs.map (·.toNat)) }
  | .bf16 => { writes := o.writeRaws (xs.map toBf16) }
  | c =>
    let us := (List.range o.units).map (fun u =>
      quantBlock ((o.members u).map (fun e => xs.getD (e.1 * o.cols + e.2) 0)) c (if o.f.b = 0 then some 0x7F else given))
    let elems := (List.range (o.rows * o.cols)).map (fun e =>
      let r := e / o.cols
      let k := e % o.cols
      ((us.getD (o.unitOf r k) (0, [])).2).getD (o.placeIn r k) ⟨0, false, .none⟩)
    let e8s := if o.f.b = 0 then [] else us.map (·.1)
    { writes := o.writeRaws (elems.map (fun q => encodeElem c q.q q.nar)) ++
        (if o.f.b = 0 then [] else [(o.scale, e8s.map (BitVec.ofNat 8))])
      elems := elems
      e8s := e8s }

/-- A source whose codes an operand takes over by "same" or "widen" of R99: both are laid out in the same units. -/
def Opnd.takesOver (o a : Opnd) : Bool :=
  (sameCode a.f.code o.f.code || widens a.f.code o.f.code) && !a.f.affine && !o.f.affine && a.f.b == o.f.b &&
    a.f.col == o.f.col

/-- The codes and E8 of a source, copied or widened (R99, R100): a widened unit whose integers are all zero gets
E8 0 (R88), and a NaR block stays one. -/
def State.carried (s : State) (n : Nat) (a o : Opnd) : Made :=
  let raw (e : Nat) : Nat := s.rawElem n a (e / o.cols) (e % o.cols)
  let val (e : Nat) : Elem := decodeElem a.f.code (fun i => s.storeByte n (a.cb + i)) (raw e)
  let same := sameCode a.f.code o.f.code
  let e8 (u : Nat) : Nat :=
    let eb := s.storeByte n (a.scale + u)
    if !same && eb != 255 && (o.members u).all (fun p => (val (p.1 * o.cols + p.2)).i == 0 && !(val (p.1 * o.cols + p.2)).nar) then 0
    else eb
  { writes := o.writeRaws ((List.range (o.rows * o.cols)).map (fun e =>
      if same then raw e else encodeElem o.f.code (val e).i (val e).nar)) ++
      (if o.f.b = 0 then [] else [(o.scale, (List.range o.units).map (fun u => BitVec.ofNat 8 (e8 u)))]) }

/-- Bytes are written to a core store. -/
def State.writeAll (s : State) (n : Nat) (ws : List (Nat × List Byte)) : State :=
  ws.foldl (fun (s : State) (w : Nat × List Byte) => s.writeStore n w.1 w.2) s

/-- Lines that a list of writes touches. -/
def writtenLines (ws : List (Nat × List Byte)) : List Nat := linesOfAll (ws.map (fun w => (w.1, w.2.length)))

/-- The part of a list of writes that lies in some lines. -/
def writesIn (lines : List Nat) (ws : List (Nat × List Byte)) : List (Nat × List Byte) :=
  ws.flatMap (fun w => (List.range w.2.length).filterMap (fun i =>
    if lines.contains ((w.1 + i) / 64) then some (w.1 + i, [w.2.getD i 0]) else none))

/-- A line that another instruction or run pins is among those to be written (R120). -/
def State.pinnedByOther (s : State) (n x seq : Nat) (lines : List Nat) : Bool :=
  (s.core n).pins.any (fun p => !(p.ctx == x && p.seq == seq) && lines.contains p.line)

/-- The first line of ranges that keeps an instruction from release: not resident, unless the instruction's own
decode cleared its bit and every earlier writer of the line has completed (R120, R206). -/
def State.notReady (s : State) (n x : Nat) (i : Ins) (rs : List (Nat × Nat)) : Option Nat :=
  let earlier := ((s.ctx n x).queue ++ (s.ctx n x).fly).filter (fun j => decide (j.seq < i.seq))
  let res := (s.core n).resident
  (linesOfAll rs).find? (fun l => !res.contains l && !(i.lines.contains l && earlier.all (fun j => !j.lines.contains l)))

/-! ## Tags (R94, R95, R173) -/

/-- Bytes of a unit in one plane, without repeats, and the tag offset of an odd 4-bit column. -/
def Opnd.unitBytes (o : Opnd) (u p : Nat) : List Nat :=
  ((o.members u).map (fun e => o.addr + p * o.plane + e.1 * o.pitch + e.2 * o.f.code.bits / 8)).eraseDups

/-- The first mismatch of an operand: ordinal, plane, data tag and scale tag. -/
def State.opndSkew (s : State) (n : Nat) (o : Opnd) : Option (Nat × Nat × Nat × Nat) :=
  if o.f.affine then
    (List.range o.rows).findSome? (fun r =>
      (s.skewOf n (rangeFrom (o.addr + r * o.pitch) o.rowLen) 0 (o.scale + 16 * r)).map (fun t => (r, 0, t.1, t.2)))
  else
    (List.range o.blocks).findSome? (fun u => (List.range o.f.code.planes).findSome? (fun p =>
      let odd := if o.f.col && o.f.code.four && u % o.cols % 2 == 1 then 1 else 0
      (s.skewOf n (o.unitBytes u p) odd (o.scale + u)).map (fun t => (u, p, t.1, t.2))))

/-- The operand carries tags that are compared. -/
def Opnd.tagged (o : Opnd) : Bool := o.f.affine || o.f.b != 0

/-- The word of QNT.SKEW and VEC.SKEW (R179). -/
def engSkewWord (ord plane dtag stag : Nat) : Word :=
  BitVec.ofNat 64 (stag * 2 ^ 56 + dtag * 2 ^ 48 + ord % 2 ^ 24 * 2 ^ 16 + plane * 2 ^ 10)

/-- The tag comparison of an instruction over its sources, with the injection of point 1: none when all match,
else the skew word and the state. -/
def State.skewAll (s : State) (n page : Nat) (os : List Opnd) : Option Word × State :=
  if !os.any (·.tagged) then (none, s)
  else
    let r := s.inject page 1
    if r.1 then
      let d := r.2.draw
      (some (engSkewWord 0 0 (Config.freeNat d.1 % 256) (Config.freeNat (d.1 + 1) % 256)), d.2.draw.2)
    else
      ((os.findSome? (fun o => r.2.opndSkew n o)).map (fun t => engSkewWord t.1 t.2.1 t.2.2.1 t.2.2.2), r.2)

/-- A row record that an operand reads breaks its layout (R162). -/
def State.badRec (s : State) (n : Nat) (o : Opnd) : Bool :=
  o.f.affine && (List.range o.rows).any (fun r => !(s.rowRec n (o.scale + 16 * r)).ok)

/-! ## The end of an instruction -/

/-- A vector or quantiser instruction that a context has in its engine leaves it. -/
def State.dropJob (s : State) (n : Nat) (vec : Bool) : State :=
  let k := s.core n
  s.setCore n (if vec then { k with vec := none } else { k with qnt := none })

/-- An instruction ends with a fault of its engine: its queue place, its pins, its demand go, the lines it was to
write are resident again over their contents. -/
def State.engFault (s : State) (n x : Nat) (i : Ins) (vec : Bool) (cls code info : Nat) : State :=
  let j := if vec then (s.core n).vec else (s.core n).qnt
  let mine : Bool := (match j with
    | none => false
    | some j => j.ctx == x && j.ins.seq == i.seq)
  let s := if mine then s.dropJob n vec else s
  let s := ((s.abandon n x i).unpin n x i.seq).freeDemand n x i.seq
  s.faultCtx n x { unit := if vec then 4 else 5, cls := cls, code := code, pc := i.pc, info := info }

/-- The lines already written when an instruction ends at an uncorrectable line: some of those that no later
element reaches, as many as the manual leaves open (R174). -/
def State.somePrefix (s : State) (lines late : List Nat) : List Nat × State :=
  let l := lines.filter (fun k => !late.contains k)
  let d := s.draw
  (l.take (Config.freeNat d.1 % (l.length + 1)), d.2)

/-! ## Shadow sets that drains read (R171) -/

/-- Rows and columns of the shadow tile of an array. -/
def State.shadowGeom (s : State) (n a : Nat) : Nat × Nat :=
  let t := (s.arr n a).shadow
  (t.rows, if t.shape = 1 then 1024 else 128)

/-- A matrix instruction of the context, earlier in program order and not ended, swaps the array. -/
def State.swapAhead (s : State) (n x seq a : Nat) : Option Ins :=
  ((s.ctx n x).fly ++ (s.ctx n x).queue).reverse.find? (fun j =>
    j.cls == 0 && decide (j.seq < seq) && bitAt j.desc.w0 27 && bitAt j.desc.w0 (36 + a))

/-- Rows and columns of the tile that a drain decoded now will find: that of the last swap ahead of it, else the
shadow tile's. -/
def State.drainGeom (s : State) (n x a : Nat) : Nat × Nat :=
  match s.swapAhead n x (s.ctx n x).nseq a with
  | some j => (fld j.desc.w0 21 12 + 1, if fld j.desc.w0 25 24 = 1 then 1024 else 128)
  | none => s.shadowGeom n a

/-- A drain at step 3 of R172 or R198: 0 proceeds, 1 waits, 2 is refused. -/
def State.drainStep (s : State) (n x seq a : Nat) : Nat :=
  if s.shadowState n a = 1 then 0
  else if s.shadowState n a = 0 ∧ (s.swapAhead n x seq a).isSome then 1
  else 2

/-- A drain of array `a` that waits in another engine's queue and lies earlier in program order (R171). -/
def State.rivalDrain (s : State) (n x seq cls op a : Nat) : Option Ins :=
  (s.ready n x cls).filter (fun j =>
    decide (j.seq < seq) && opOf j.desc == op && (if op = 0x21 then fld j.desc.w0 35 34 else fld j.desc.w0 53 52) == a)

/-- Ceiling and fraction of a shadow tile (R143, R156, R159). -/
def State.shadowScale (s : State) (n a : Nat) : Nat × Nat :=
  let p := pMXA n a
  (s.rf p 0x190 24 16 + 8 * (s.rf p 0x190 27 26 - 1),
    match s.rf p 0x190 29 28 with
    | 0 => 24
    | 1 => 20
    | _ => 16)

end Sys2Proof.Machine
end

