-- ==== Sys2Proof/Machine/Quantiser.lean ====
section
/-! DEFINITION. The row quantiser: row-affine codes, block codes, drains, the census and the instructions QUANT
and QDRAIN (R162 to R183). -/

namespace Sys2Proof.Machine

/-! ## Row-affine codes (R162, R164) -/

/-- A row as the row quantiser writes it: its record, its codes, how many elements are counted as clamped, and
whether an operation overflowed. -/
structure RowOut where
  sc : F32 := 0
  z : Int := 0
  c : F32 := 0
  const : Bool := false
  nar : Bool := false
  u : List Nat
  sats : Nat := 0
  ovf : Bool := false
  deriving DecidableEq, Repr

/-- const_row of R164. -/
def constRow (c : F32) (xs : List F32) (degenerate : Bool) : RowOut :=
  { c := canon c, const := true, u := xs.map (fun _ => 0),
    sats := if degenerate then (xs.filter (fun x => cmpF x c != 0)).length else 0 }

/-- Minimum and maximum of a row, the first of equal values. -/
def rowRange (xs : List F32) : Option (F32 × F32) :=
  xs.foldl (fun (b : Option (F32 × F32)) x =>
    let v := canon x
    match b with
    | none => some (v, v)
    | some r => some (if cmpF v r.1 < 0 then v else r.1, if cmpF r.2 v < 0 then v else r.2)) none

/-- row_quant of R164; `bad` says that a source element is NaR, infinite or NaN. -/
def rowQuant (xs : List F32) (bad : Bool) (b : Nat) : RowOut :=
  let kmax : Nat := 2 ^ b - 1
  match bad, rowRange xs with
  | true, _ => { nar := true, u := xs.map (fun _ => 0) }
  | false, none => { nar := true, u := xs.map (fun _ => 0) }
  | false, some (mn, mx) =>
    if cmpF mn mx ≥ 0 then constRow mn xs false
    else
      let d := fsubTz mx mn
      let s := fdivTz d.1 (encodeF false 0 kmax).1
      let ovf := d.2.contains 0
      if s.1 = 0 then { constRow mn xs true with ovf := ovf }
      else
        let z := f2iTz (fdivTz (negF mn) s.1).1
        if z > 0x7fffff ∨ z < -0x7fffff then { constRow mn xs true with ovf := ovf }
        else
          let qs : List Int := xs.map (fun (x : F32) => f2iTz (fdivTz x s.1).1 + z)
          { sc := s.1, z := z, ovf := ovf,
            u := qs.map (fun (q : Int) => if q < 0 then 0 else if q > (kmax : Int) then kmax else q.toNat),
            sats := (qs.filter (fun (q : Int) => decide (q < 0) || decide (q > (kmax : Int)))).length }

/-- The 16 bytes of a row record (R162). -/
def RowOut.record (r : RowOut) : List Byte :=
  natLe 8 (r.sc.toNat + ofSigned 32 r.z * 2 ^ 32) ++ natLe 8 (r.c.toNat + b2n r.const * 2 ^ 32 + b2n r.nar * 2 ^ 33)

/-- Elements of the row whose value is 0. -/
def RowOut.zeros (r : RowOut) : Nat :=
  if r.nar then 0
  else if r.const then (if (decodeF r.c).k = .zero then r.u.length else 0)
  else (r.u.filter (fun (u : Nat) => (u : Int) == r.z)).length

/-! ## The descriptor (R175) -/

/-- The instruction is QDRAIN. -/
def qDrain (d : Desc) : Bool := opOf d == 0x21

/-- ARRAY. -/
def qArray (d : Desc) : Nat := fld d.w0 35 34

/-- Rows and columns: of the descriptor, or of the tile drained. -/
def State.qGeom (s : State) (n : Nat) (d : Desc) : Nat × Nat :=
  if qDrain d then s.shadowGeom n (qArray d) else (fld d.w0 21 12 + 1, fld d.w5 47 32)

/-- The source of a QUANT. -/
def qSrc (d : Desc) : Option Opnd :=
  (fmtOf (fld d.w1 63 48)).map (fun f =>
    { f := f, addr := fld d.w1 21 0, pitch := fld d.w1 47 32, plane := fld d.w4 53 32, scale := fld d.w4 21 0,
      rows := fld d.w0 21 12 + 1, cols := fld d.w5 47 32, cb := 0 })

/-- The destination, with rows and columns given. -/
def qDst (d : Desc) (g : Nat × Nat) : Option Opnd :=
  (fmtOf (fld d.w2 63 48)).map (fun f =>
    { f := f, addr := fld d.w2 21 0, pitch := fld d.w2 47 32, plane := fld d.w3 53 32, scale := fld d.w3 21 0,
      rows := g.1, cols := g.2, cb := 0 })

/-- The row records that a drain reads. -/
def qRecs (d : Desc) (rows : Nat) : List (Nat × Nat) :=
  if qDrain d && bitAt d.w0 33 then [(fld d.w4 21 0, 16 * rows)] else []

/-- CENSUS_EN. -/
def qCensus (d : Desc) : Bool := bitAt d.w0 39

/-- The destination as GIVEN_E8 has it. -/
def qGiven (d : Desc) : Option Nat := if bitAt d.w0 32 then some (fld d.w0 31 24) else none

/-- Conditions on the addresses of an operand that need no count: `w` its word, `pw`, `sw` the words of its plane
stride and of its scales. -/
def opndAligns (o : Opnd) (w pw sw : Nat) : List Check :=
  [ (w, 0, cALIGN, o.addr % 64 != 0), (w, 32, cALIGN, o.pitch % 8 != 0),
    (pw, 32, cALIGN, o.f.code.wide && o.plane % 64 != 0),
    (sw, 0, cALIGN, (o.f.scaled || o.f.affine) && o.scale % 64 != 0) ]

/-- Conditions on the extent of an operand: reported at the fields given for the pitch and data, for the plane
stride, for the scales and for the records. -/
def State.opndExtents (s : State) (n x : Nat) (o : Opnd) (pd pl sc rec : Nat × Nat) : List Check :=
  [ (pd.1, pd.2, cRANGE, decide (1 < o.rows) && decide (o.pitch < o.rowLen)),
    (pl.1, pl.2, cRANGE, o.f.code.wide && decide (o.plane < o.rows * o.pitch)),
    (let f := if o.f.code.wide then laterField pd pl else pd
     (f.1, f.2, cRANGE, !s.inside n x o.data)),
    (if o.f.affine then (rec.1, rec.2, cRANGE, !s.inside n x o.scales) else (sc.1, sc.2, cRANGE, !s.inside n x o.scales)) ]

/-- Conditions on the columns and rows of an operand: at the field of COLS, and at its format for COL sharing. -/
def opndCounts (o : Opnd) (cols fmt : Nat × Nat) : List Check :=
  [ (cols.1, cols.2, cALIGN, (o.f.b != 0 && !o.f.col && o.cols % o.f.b != 0) || (o.f.code.four && o.cols % 2 == 1)),
    (fmt.1, fmt.2, cALIGN, o.f.col && o.rows % o.f.b != 0) ]

/-- A format field that a use does not accept. -/
def fmtBad (u : Use) (v : Nat) : Bool :=
  match fmtOf v with
  | none => true
  | some f => !accepts u f.code

/-- The census record would leave the row. -/
def qColsOver (d : Desc) (cols : Nat) : Bool := qCensus d && decide (fld d.w6 39 20 < fld d.w6 19 0 + cols)

/-- Conditions of the table of R175 that need no shadow tile. -/
def State.qntChecks (s : State) (n x : Nat) (d : Desc) : List Check :=
  let drain := qDrain d
  let sv := fld d.w1 63 48
  let dv := fld d.w2 63 48
  let a := qArray d
  let dst := qDst d (s.qGeom n d)
  let cg := s.gaddr (s.reg (pQNT n) 0x100)
  [ (0, 0, cRANGE, opOf d != 0x20 && opOf d != 0x21), resv d 0 11 8, resv d 0 23 22,
    (0, 32, cRANGE, bitAt d.w0 32 && fld d.w0 31 24 == 255),
    (0, 33, cRANGE, bitAt d.w0 33 && opOf d == 0x20),
    (0, 34, cCONFLICT, drain && s.arrOwner n a != x), (0, 34, cDEPENDENCY, drain && !s.enabled (pMXA n a)),
    resv d 0 38 36,
    (0, 39, cROUTE, qCensus d && !s.inSlice cg.node),
    (0, 41, (s.sigRefusal n x d).getD 0, (s.sigRefusal n x d).isSome), resv d 1 31 22,
    (1, 48, cRANGE, !drain && fmtBad .qin sv), (1, 48, cVERSION, !drain && s.fmtOld sv), resv d 2 31 22,
    (2, 48, cRANGE, fmtBad .qout dv || (bitAt d.w0 32 && (match dst with
      | none => false
      | some o => !o.f.scaled))), (2, 48, cVERSION, s.fmtOld dv),
    resv d 3 31 22, resv d 3 63 54, resv d 4 31 22, resv d 4 63 54, resv d 5 31 0,
    (5, 32, cRANGE, !drain && fld d.w5 47 32 == 0), resv d 5 63 48,
    (6, 20, cRANGE, !drain && qColsOver d (fld d.w5 47 32)), resv d 7 63 0,
    (4, 0, cALIGN, drain && bitAt d.w0 33 && fld d.w4 21 0 % 64 != 0) ] ++
  (match dst with
    | none => []
    | some o => opndAligns o 2 3 3 ++ (if drain then [] else
        opndCounts o (5, 32) (2, 48) ++ s.opndExtents n x o (5, 32) (3, 32) (5, 32) (3, 0))) ++
  (match drain, qSrc d with
    | false, some o => opndAligns o 1 4 4 ++ opndCounts o (5, 32) (1, 48) ++ s.opndExtents n x o (5, 32) (4, 32) (5, 32) (4, 0)
    | _, _ => [])

/-- The first refusal of a quantiser descriptor at step 1 of R172. -/
def State.qntRefusal (s : State) (n x : Nat) (d : Desc) : Option Refuse := firstRefusal (s.qntChecks n x d)

/-- The first refusal of a QDRAIN by the conditions deferred to step 3. -/
def State.qntDeferred (s : State) (n x : Nat) (d : Desc) : Option Refuse :=
  let g := s.qGeom n d
  firstRefusal ([ (4, 0, cRANGE, !s.inside n x (qRecs d g.1)), (6, 20, cRANGE, qColsOver d g.2) ] ++
    (match qDst d g with
    | none => []
    | some o => opndCounts o (2, 48) (2, 48) ++ s.opndExtents n x o (2, 32) (3, 32) (3, 0) (3, 0)))

/-- Lines that a quantiser instruction will write, as its decode knows them (R120). -/
def State.qntLines (s : State) (n x : Nat) (d : Desc) : List Nat :=
  match qDst d (if qDrain d then s.drainGeom n x (qArray d) else s.qGeom n d) with
  | none => []
  | some o => if s.inside n x (o.data ++ o.scales) then linesOfAll (o.data ++ o.scales) else []

/-! ## Faults -/

/-- A refused quantiser descriptor. -/
def State.qntRefuse (s : State) (n x : Nat) (i : Ins) (r : Refuse) : State :=
  s.engFault n x i false (refusalClass 0x22 r) r.code r.info

/-- A quantiser instruction faults with ABORT (R182). -/
def State.qntAbort (s : State) (n x : Nat) (i : Ins) (cls code : Nat) : State :=
  (s.engFault n x i false cls code 0).raise (pQNT n) 0

/-! ## Decode -/

/-- A quantiser instruction is decoded. -/
def State.issueQnt (s : State) (own : Nat) (i : Issue) : Res :=
  let n := i.core.val
  let x := i.ctx.val
  let bad := s.qntRefusal n x i.desc
  wellFormed (opOk qntGap own i.desc)
    (s.issueGen i 2 ((if ((s.ctx n x).head 2).isSome then none else bad).map (fun (r : Refuse) (ins : Ins) (t : State) =>
      t.qntRefuse n x ins r)) (if bad.isSome then [] else s.qntLines n x i.desc))

/-- QUANT (R175). -/
def execQuant (i : Issue) (s : State) : Res := s.issueQnt 0x20 i

/-- QDRAIN (R170, R175). -/
def execQdrain (i : Issue) (s : State) : Res := s.issueQnt 0x21 i

/-! ## Release (R171, R172, R440) -/

/-- Ranges that an instruction reads. -/
def State.qntReads (s : State) (n : Nat) (d : Desc) : List (Nat × Nat) :=
  if qDrain d then qRecs d (s.qGeom n d).1
  else match qSrc d with
    | none => []
    | some o => o.data ++ o.scales

/-- A record that the instruction reads breaks its layout. -/
def State.qntBadRec (s : State) (n : Nat) (d : Desc) : Bool :=
  if qDrain d then
    bitAt d.w0 33 && (List.range (s.qGeom n d).1).any (fun r => !(s.rowRec n (fld d.w4 21 0 + 16 * r)).ok)
  else match qSrc d with
    | none => false
    | some o => s.badRec n o

/-- The instruction is in the quantiser. -/
def State.qntTake (s : State) (n x : Nat) (i : Ins) : State :=
  let reads := linesOfAll (s.qntReads n i.desc)
  let s := (s.takeIns n x i).commitDemand n x i.seq 3
  let s := s.pin n x i.seq false reads
  let k := s.core n
  let s := s.setCore n { k with
    qnt := some { ctx := x, ins := i, step := s.stepNo }
    turnQ := 1 - x }
  if qDrain i.desc then s.setRf (pMXA n (qArray i.desc)) 0x100 17 16 2 else s

/-- Step 4 of R172 and the release, with the injections of points 1 and 2. -/
def State.qntGate (s : State) (n x : Nat) (i : Ins) : State :=
  let srcs := if qDrain i.desc then [] else (qSrc i.desc).toList
  let k := s.skewAll n (pQNT n) srcs
  match k.1 with
  | some w => (((k.2.setReg (pQNT n) 0x110 w).qntAbort n x i 0x22 0x40).raise (pQNT n) 1).contained
  | none =>
    let s := k.2.qntTake n x i
    let r := s.inject (pQNT n) 2
    if r.1 then (r.2.qntAbort n x i 0x22 0x41).contained else r.2

/-- A VDRAIN of the same shadow set has reached the array too and lies earlier in program order: it wins (R171). -/
def State.vdrainFirst (s : State) (n x : Nat) (i : Ins) : Bool :=
  qDrain i.desc && (s.core n).vec.isNone && (s.rivalDrain n x i.seq 1 0x41 (qArray i.desc)).isSome

/-- Nothing but the engine keeps an instruction from its release: lines, shadow set, order of drains (R171, R172). -/
def State.qntMay (s : State) (n x : Nat) (i : Ins) : Bool :=
  (s.notReady n x i (s.qntReads n i.desc)).isNone && !(qDrain i.desc && s.drainStep n x i.seq (qArray i.desc) == 1) &&
    !s.vdrainFirst n x i

/-- QNT_RELEASE (R172). -/
def execQntRelease (core : CoreId) (ctx : CtxId) (s : State) : Res :=
  let n := core.val
  let x := ctx.val
  match s.ready n x 2 with
  | none => .fault .notEnabled
  | some i =>
    let d := i.desc
    let step := if qDrain d then s.drainStep n x i.seq (qArray d) else 0
    match s.qntRefusal n x d with
    | some r => (s.qntRefuse n x i r).advance
    | none =>
      if (s.core n).qnt.isSome || !s.turnOk n x (s.core n).turnQ || !s.qntMay n x i || !s.firstCome n x 2 i (s.qntMay n) then
        .fault .notEnabled
      else if step = 2 then (s.qntRefuse n x i { code := cSTATE, word := 0, bit := 34 }).advance
      else
        match (if qDrain d then s.qntDeferred n x d else none) with
        | some r => (s.qntRefuse n x i r).advance
        | none =>
          if s.qntBadRec n d then (s.qntRefuse n x i { code := cRANGE, word := 4, bit := 0 }).advance
          else if !s.fits n 3 then
            (if s.waitsAlready n x i.seq then .fault .notEnabled else (s.waitEnvelope n x i.seq).done)
          else
            let r := s.inject (pCOR n) 1
            if r.1 then (r.2.coreFault n false).advance else (r.2.qntGate n x i).advance

/-! ## The work of an instruction (R164, R165, R170) -/

/-- drain_value of R170 for an entry of the shadow set. -/
def State.drainLoad (s : State) (n : Nat) (d : Desc) (cols e : Nat) : Load :=
  let a := qArray d
  let t := (s.arr n a).shadow
  let c := s.shadowScale n a
  if t.poison.contains e then { x := nanF, nar := true }
  else
    let v := a64ToFp32 (Tab.get t.a 0 e) false c.1 c.2
    let p := s.rowRec n (fld d.w4 21 0 + 16 * (e / cols))
    if bitAt d.w0 33 && !p.const then
      let w := fmulTz v.1 p.sc
      { x := w.1, fl := flagIf v.2 0 ++ w.2 }
    else { x := v.1, fl := flagIf v.2 0 }

/-- The source values in row and column order. -/
def State.qntLoads (s : State) (n : Nat) (d : Desc) : List Load × State :=
  if qDrain d then
    let g := s.qGeom n d
    ((List.range (g.1 * g.2)).map (fun e => s.drainLoad n d g.2 e), s)
  else match qSrc d with
    | none => ([], s)
    | some o => s.loadAll n o (pQNT n) 3

/-- What an instruction writes and counts. -/
structure QntOut where
  writes : List (Nat × List Byte)
  /-- Tags of row-affine data and records: offset and tag plus 1. -/
  tags : List (Nat × Nat) := []
  zeros : Nat
  sats : Nat
  nars : Nat
  emin : Option Nat := none
  emax : Option Nat := none
  ovf : Bool := false
  deriving DecidableEq, Repr

/-- A row-affine destination (R164, R173).  The row index of a tag counts from ROW_BASE: DESIGN CHOICE, log entry 58. -/
def qntRows (o : Opnd) (base : Nat) (ls : List Load) : QntOut :=
  let outs := (List.range o.rows).map (fun r =>
    let row := (ls.drop (r * o.cols)).take o.cols
    rowQuant (row.map (·.x)) (row.any (fun l => l.nar || l.inf || l.nan || (decodeF l.x).k == .inf || (decodeF l.x).k == .nan))
      o.f.code.bits)
  { writes := o.writeRaws (outs.flatMap (·.u)) ++ [(o.scale, outs.flatMap (·.record))]
    tags := (List.range o.rows).flatMap (fun r =>
      (rangeFrom (o.addr + r * o.pitch) o.rowLen ++ rangeFrom (o.scale + 16 * r) 16).map (fun b => (b, (base + r) % 256 + 1)))
    zeros := (outs.map (·.zeros)).sum
    sats := (outs.map (·.sats)).sum
    nars := (outs.map (fun r => if r.nar then r.u.length else 0)).sum
    ovf := outs.any (·.ovf) }

/-- The smaller, the larger of an optional number and another. -/
def optMin (a : Option Nat) (b : Nat) : Option Nat := some (match a with
  | none => b
  | some v => min v b)
/-- The larger of an optional number and another. -/
def optMax (a : Option Nat) (b : Nat) : Option Nat := some (match a with
  | none => b
  | some v => max v b)

/-- A block-code destination (R165, R176). -/
def qntBlocks (o : Opnd) (given : Option Nat) (ls : List Load) : QntOut :=
  let m := o.make given (ls.map (·.x))
  let elem (e : Nat × Nat) : QElem := m.elems.getD (e.1 * o.cols + e.2) ⟨0, false, .none⟩
  let plain := (List.range o.blocks).filterMap (fun u =>
    let eb := m.e8s.getD u 255
    if eb = 255 ∨ (o.members u).all (fun e => (elem e).q == 0 && !(elem e).nar) then none else some eb)
  { writes := m.writes
    zeros := (m.elems.filter (fun q => q.q == 0 && !q.nar)).length
    sats := (m.elems.filter (fun q => q.o == .sat)).length
    nars := (m.elems.filter (·.nar)).length
    emin := plain.foldl optMin none
    emax := plain.foldl optMax none }

/-- Everything an instruction writes and counts, from its source values. -/
def qntOut (d : Desc) (o : Opnd) (ls : List Load) : QntOut :=
  let q := if o.f.affine then qntRows o (fld d.w6 63 40) ls else qntBlocks o (qGiven d) ls
  { q with ovf := q.ovf || ls.any (fun l => l.fl.contains 0) }

/-! ## The census (R176, R177) -/

/-- The index in the tensor of an element. -/
def qntIndex (d : Desc) (cols e : Nat) : Nat :=
  ((fld d.w6 63 40 + e / cols) * fld d.w6 39 20 + fld d.w6 19 0 + e % cols) % 2 ^ 64

/-- The updates of a census record: offset, operation, operand; minima and maxima only where they have a value. -/
def censusOps (d : Desc) (cols : Nat) (ls : List Load) (q : QntOut) : List (Nat × Nat × Nat) :=
  let odd := (List.range ls.length).find? (fun e => match ls[e]? with
    | none => false
    | some l => l.inf || l.nan)
  let opt (off op : Nat) (v : Option Nat) : List (Nat × Nat × Nat) := (v.map (fun k => (off, op, k))).toList
  [ (0x00, 2, q.zeros), (0x08, 2, q.sats), (0x10, 2, q.nars), (0x18, 2, (ls.filter (·.inf)).length),
    (0x20, 2, (ls.filter (·.nan)).length) ] ++
    opt 0x28 5 (odd.map (qntIndex d cols)) ++ opt 0x30 5 q.emin ++ opt 0x38 6 q.emax

/-- Address of the census record. -/
def State.censusAddr (s : State) (n : Nat) (d : Desc) : GAddr :=
  let g := s.gaddr (s.reg (pQNT n) 0x100)
  { g with loc := g.loc + 64 * fld d.w0 63 48 }

/-- An address that no adder serves because it is core store or register space (R303). -/
def State.noAdder (s : State) (a : Nat) : Bool :=
  match s.place a with
  | .store _ _ => true
  | .register _ _ => true
  | _ => false

/-- Updates of a record of this node: class and code of the first that is refused (R177, R266, R303, R311). -/
def State.censusHere (s : State) (a : Nat) (id : Option Nat) (ops : List (Nat × Nat × Nat)) : Nat × Nat × State :=
  ops.foldl (fun (acc : Nat × Nat × State) (u : Nat × Nat × Nat) =>
    if acc.2.1 ≠ cOK then acc
    else if acc.2.2.noAdder (a + u.1) then (0x40, cRANGE, acc.2.2)
    else
      let c := acc.2.2.placeCode (a + u.1)
      let c := if c ≠ cOK then c else acc.2.2.regionCode id (a + u.1) 8
      if c ≠ cOK then (0x21, c, acc.2.2)
      else
        let r := acc.2.2.atomic u.2.1 (a + u.1) u.2.2 none .none
        (0x40, r.1, r.2)) (0, cOK, s)

/-- Updates of a record of another node leave as atomics (R333). -/
def State.censusThere (s : State) (n x seq node a : Nat) (ops : List (Nat × Nat × Nat)) : State :=
  ops.foldl (fun (s : State) (u : Nat × Nat × Nat) =>
    let t := s.newTag
    let r : OutReq := { tag := t.1, type := 0x03, core := n, ctx := x, seq := seq }
    let s : State := { t.2 with link := { t.2.link with reqs := t.2.link.reqs ++ [r] } }
    s.sendPacket (dieOf n) (s.mkPacket node 0x03 0 t.1 (a + u.1) (u.2.1 * 2 ^ 60) 0 (natLe 64 u.2.2))) s

/-! ## Completion (R174, R177, R182) -/

/-- Event bits of an instruction, from what it met (R182). -/
def qntBits (ls : List Load) (q : QntOut) : List Nat :=
  (if q.ovf then [2] else []) ++ (if q.sats ≠ 0 then [3] else []) ++ (if ls.any (·.inf) then [4] else []) ++
    (if ls.any (·.nan) then [5] else []) ++ (if q.nars ≠ 0 then [6] else [])

/-- The events of an instruction at its completion or its fault, and the outcomes that the verdict counts (R182, R215). -/
def State.qntEvents (s : State) (n : Nat) (bits : List Nat) : State :=
  (s.raiseAll (pQNT n) bits).verdictSrcs [(0, bits.contains 4), (1, bits.contains 5), (2, bits.contains 6)]

/-- The instruction is complete. -/
def State.qntDone (s : State) (n x : Nat) (i : Ins) (bits : List Nat) : State :=
  let s := ((((s.dropJob n false).unpin n x i.seq).freeDemand n x i.seq).finishIns n x i).addReg (pQNT n) 0x108 1
  (s.qntEvents n bits).signalTally n x i

/-- The first source element that an uncorrectable line or entry spoils. -/
def State.qntFirstBad (s : State) (n : Nat) (d : Desc) : Option Nat :=
  let g := s.qGeom n d
  let lines := (linesOfAll (s.qntReads n d)).filter (fun l => s.storeBad n l)
  let place (l : Nat) : Option Nat :=
    if qDrain d then (List.range g.1).findSome? (fun r => if (linesOf (fld d.w4 21 0 + 16 * r) 16).contains l then some (r * g.2) else none)
    else match qSrc d with
      | none => none
      | some o => o.firstIn l
  let b := (lines.filterMap place).foldl optMin none
  if qDrain d then (s.arr n (qArray d)).shadow.bad.foldl optMin b else b

/-- What an instruction that ends at a spoilt element has met (R182): its source elements before that one, and the results
of the rows and blocks that are complete by then (DEDUCED, log entry 59). -/
def qntMet (d : Desc) (o : Opnd) (e : Nat) (ls : List Load) : List Nat :=
  let unit := if o.f.scaled && o.f.col then max 1 o.f.b else 1
  let rows := e / max 1 o.cols / unit * unit
  let q := qntOut d { o with rows := rows } (ls.take (rows * o.cols))
  qntBits (ls.take e) { q with ovf := q.ovf || (ls.take e).any (fun l => l.fl.contains 0) }

/-- The instruction ends at a spoilt source element (R174). -/
def State.qntPoison (s : State) (n x : Nat) (i : Ins) (o : Opnd) (e : Nat) (ls : List Load) : State :=
  let q := qntOut i.desc o ls
  let p := s.somePrefix (writtenLines q.writes) (linesOfAll (o.fromElem e))
  let s := p.2.writeAll n (writesIn p.1 q.writes)
  let s := s.putTags n (q.tags.filter (fun t => p.1.contains (t.1 / 64)))
  ((s.qntEvents n (qntMet i.desc o e ls)).qntAbort n x i 0x22 0x41).contained

/-- The stores of an instruction are made, the shadow set is drained (R116), and its census updates leave; it completes
when none is on its way. -/
def State.qntFinish (s : State) (n x : Nat) (i : Ins) (cols : Nat) (ls : List Load) (q : QntOut) : State :=
  let d := i.desc
  let s := (s.writeAll n q.writes).putTags n q.tags
  let s := s.setResident n (i.lines ++ writtenLines q.writes) true
  let s := if qDrain d then s.emptyShadow n (qArray d) else s
  let bits := qntBits ls q
  let g := s.censusAddr n d
  let ops := if qCensus d then censusOps d cols ls q else []
  if g.node = s.nodeId ∨ ops = [] then
    let r := s.censusHere g.loc i.txn ops
    if r.2.1 ≠ cOK then (r.2.2.qntEvents n bits).qntAbort n x i r.1 r.2.1 else r.2.2.qntDone n x i bits
  else
    let s := s.censusThere n x i.seq g.node g.loc ops
    let k := s.core n
    s.setCore n { k with qnt := k.qnt.map (fun j => { j with sent := true, open_ := ops.length, events := bits }) }

/-- The census record lies in a line in hold or in a commit window, so that its updates wait (R273, R316). -/
def State.censusWaits (s : State) (n : Nat) (d : Desc) : Bool :=
  let g := s.censusAddr n d
  g.node == s.nodeId && (s.inHold g.loc || s.closing g.loc 64)

/-- QNT_COMPLETE (R177). -/
def execQntComplete (core : CoreId) (s : State) : Res :=
  let n := core.val
  match (s.core n).qnt with
  | none => .fault .notEnabled
  | some j =>
    let x := j.ctx
    let i := j.ins
    let g := s.qGeom n i.desc
    if j.sent then happens (s.live && j.open_ == 0) (s.qntDone n x i j.events)
    else
      match qDst i.desc g with
      | none => .fault .notEnabled
      | some o =>
        let ls := s.qntLoads n i.desc
        let q := qntOut i.desc o ls.1
        if s.pinnedByOther n x i.seq (writtenLines q.writes) || (qCensus i.desc && s.censusWaits n i.desc) then
          .fault .notEnabled
        else
          match s.qntFirstBad n i.desc with
          | some e => happens s.live (ls.2.qntPoison n x i o e ls.1)
          | none => happens s.live (ls.2.qntFinish n x i g.2 ls.1 q)

/-- A census update of another node has been acknowledged. -/
def State.censusAck (s : State) (n x seq : Nat) : State :=
  let k := s.core n
  s.setCore n { k with qnt := k.qnt.map (fun j => if j.ctx = x ∧ j.ins.seq = seq then { j with open_ := j.open_ - 1 } else j) }

/-- A census update has drawn a NAK (R177). -/
def State.censusNak (s : State) (n x seq cls code : Nat) : State :=
  match (s.core n).qnt with
  | none => s
  | some j => if j.ctx = x ∧ j.ins.seq = seq then (s.qntEvents n j.events).qntAbort n x j.ins cls code else s

end Sys2Proof.Machine
end

