-- ==== Sys2Proof/Machine/Requests.lean ====
section
/-! DEFINITION. Requests to memory as their controller or slice serves them: reads, writes and atomics of the units of the
package, at once or after the hold of their pseudo-channel (R298 to R306, R314, R316). -/

namespace Sys2Proof.Machine

/-- Contexts a request's partial writes count for. -/
def reqCtxs (r : Requester) : List Nat :=
  match r with
  | .program n x => [2 * n.val + x.val]
  | .fetch n x => [2 * n.val + x.val]
  | .dma n x => [2 * n.val + x.val]
  | .quantiser n x => [2 * n.val + x.val]
  | _ => []

/-- The requester is an issue unit, which only reads. -/
def reqFetches (r : Requester) : Bool :=
  match r with
  | .fetch _ _ => true
  | _ => false

/-- The read class of a requester (R300); a DMA engine and a torus port bring their own, and none is stated for an
instruction fetch. -/
def classOk (r : Requester) (cls : Nat) : Bool :=
  match r with
  | .program _ _ => cls == 1
  | .quantiser _ _ => cls == 1
  | .dma _ _ => true
  | .fetch _ _ => true
  | .torus => true
  | _ => cls == 0

/-- A byte range inside the HBM or inside one slice in scratchpad mode (R39, R296). -/
def State.served (s : State) (a len : Nat) : Bool :=
  match s.place a, s.place (a + len - 1) with
  | .hbm, .hbm => true
  | .scratch i, .scratch j => i == j && !s.scratchShut i (a + len - 1)
  | _, _ => false

/-- What a read means to the unit that asked: an issue unit that fetches from a poisoned line faults its context as for
a program load (R314). -/
def State.readConsumed (s : State) (by_ : Requester) (bad : Bool) : State :=
  match by_ with
  | .fetch n x =>
    if bad then s.faultCtx n.val x.val { unit := 8, cls := 0x40, code := 0x40, pc := s.ctxPc n.val x.val } else s
  | _ => s

/-- An issue unit fetches the line at the PC of a running context. -/
def State.mayFetchAt (s : State) (by_ : Requester) (a : Nat) : Bool :=
  match by_ with
  | .fetch n x => s.runs n.val x.val && s.ctxPc n.val x.val / 64 == a / 64
  | _ => true

/-- The transaction whose tagged lines a requester sees: that of its context (R266). -/
def State.viewOf (s : State) (by_ : Requester) : Option Nat :=
  match by_ with
  | .program n x => (s.ctx n.val x.val).txn
  | .fetch n x => (s.ctx n.val x.val).txn
  | .dma n x => (s.ctx n.val x.val).txn
  | .quantiser _ _ => none
  | .torus => none
  | .ethernet => none
  | .collective => none
  | .cfe => none
  | .msc => none

/-- Slot of R250 of a requester. -/
def reqSlot (r : Requester) : Nat :=
  match r with
  | .program n x => 2 * n.val + x.val
  | .fetch n x => 2 * n.val + x.val
  | .dma n x => 2 * n.val + x.val
  | .quantiser n x => 2 * n.val + x.val
  | .torus => 288
  | .ethernet => 300
  | .collective => 301
  | .cfe => 301
  | .msc => 301

/-- Die whose request tracker holds a request (R299): that of the core; die 0 for what the command does not place. -/
def reqDie (r : Requester) : Nat :=
  match r with
  | .program n _ => dieOf n.val
  | .fetch n _ => dieOf n.val
  | .dma n _ => dieOf n.val
  | .quantiser n _ => dieOf n.val
  | _ => 0

/-- The unit that serves a request has done so: its rotation goes on behind the slot of the requester (R250, R298). -/
def State.servedBy (s : State) (by_ : Requester) (a : Nat) : State :=
  match s.place a with
  | .scratch sl => s.tookSlot (100 + sl) (reqSlot by_)
  | _ => if s.cacheMode (s.homeSlice a) then s.tookSlot (100 + s.homeSlice a) (reqSlot by_)
      else s.tookSlot (200 + (s.physMap a).1) (reqSlot by_)

/-- A request of a command waits at the controller of its line (R316). -/
def State.holdCmd (s : State) (by_ : Requester) (c : Instr) (a : Nat) (cls : Option Nat) : Option State :=
  s.holdReq { what := .cmd c, line := a / 64, cls := cls, die := reqDie by_ }

/-- A request whose pseudo-channel is in hold queues; one that the limits of R299 or a commit window keep back waits at
its source; any other is served as `now` says. -/
def State.request (s : State) (by_ : Requester) (c : Instr) (a n : Nat) (cls : Option Nat) (now : Option State) : Res :=
  if s.inHold a then
    match s.holdCmd by_ c a cls with
    | none => .fault .notEnabled
    | some t => happens s.live t
  else
    match now with
    | none => .fault .notEnabled
    | some t => happens (s.live && !s.closing a n) t

/-- The fault of a context whose request is refused: a DMA instruction ends with the code (R305, R311), a program access
faults its context (R42). -/
def State.refuseReq (s : State) (r : Requester) (a cls code : Nat) : State :=
  let s := s.emit (.memRefused a code)
  match r with
  | .program n x => s.faultStore n.val x.val cls code
  | .dma n x => s.faultCtx n.val x.val { unit := 6, cls := cls, code := code, pc := s.ctxPc n.val x.val }
  | _ => s

/-- A read is served. -/
def State.readNow (s : State) (by_ : Requester) (a n cls : Nat) (hit : Bool) (ecc : Ecc) : State :=
  let view := s.viewOf by_
  let t := (s.eccRead a n (some cls) hit ecc).servedBy by_ a
  let bad := t.seenBad view (a / 64)
  (t.emit (.memData a (t.seen view a n) bad)).readConsumed by_ bad

/-- MEMORY_READ (R298, R300, R313, R314). -/
def execMemoryRead (by_ : Requester) (addr : BitVec 48) (bytes : Nat) (cls : Fin 4) (hit : Bool) (ecc : Ecc) (s : State) : Res :=
  let a := addr.toNat
  wellFormed (decide (0 < bytes ∧ a % 64 + bytes ≤ 64) && classOk by_ cls.val && s.served a bytes)
    (if s.mayFetchAt by_ a then
      s.request by_ (.memoryRead by_ addr bytes cls hit ecc) a bytes (some cls.val) (some (s.readNow by_ a bytes cls.val hit ecc))
    else .fault .notEnabled)

/-- The context of a requester whose writes the region table and an open transaction judge: a program's or a DMA
instruction's (R260, R266, R267). -/
def reqWriter (r : Requester) : Option (Nat × Nat) :=
  match r with
  | .program n x => some (n.val, x.val)
  | .dma n x => some (n.val, x.val)
  | _ => none

/-- A write is served: none while it must wait. -/
def State.writeNow (s : State) (by_ : Requester) (a : Nat) (data : List Byte) : Option State :=
  match reqWriter by_ with
  | none => some ((s.plainWrite (reqCtxs by_) a data).servedBy by_ a)
  | some (n, x) =>
    match s.ctxWrite n x (s.ctx n x).txn a data false with
    | none => none
    | some (c, t) => some (if c = cOK then t.servedBy by_ a else t.refuseReq by_ a 0x21 c)

/-- MEMORY_WRITE (R260, R266, R302, R314). -/
def execMemoryWrite (by_ : Requester) (addr : BitVec 48) (data : List Byte) (s : State) : Res :=
  let a := addr.toNat
  wellFormed (!reqFetches by_ && data != [] && decide (a % 64 + data.length ≤ 64) && s.served a data.length)
    (s.request by_ (.memoryWrite by_ addr data) a data.length none (s.writeNow by_ a data))

/-- The code of the region table for an atomic of a requester (R266, R267): a context's by its transaction, another's as
of a writer that has opened nothing; the device writes its own table and copies. -/
def State.reqRegion (s : State) (by_ : Requester) (a n : Nat) : Nat :=
  match by_ with
  | .program c x => s.regionCode (s.ctx c.val x.val).txn a n
  | .dma c x => s.regionCode (s.ctx c.val x.val).txn a n
  | .quantiser c x => s.regionCode (s.ctx c.val x.val).txn a n
  | .torus => s.regionCode none a n
  | .ethernet => s.regionCode none a n
  | .fetch _ _ => cOK
  | .collective => cOK
  | .cfe => cOK
  | .msc => cOK

/-- An atomic is served; with FETCH the word as it stood before it was applied goes out when it is (R305). -/
def State.atomicNow (s : State) (by_ : Requester) (a op x : Nat) (ord : Option (Nat × Nat)) (fetch : Bool) : State :=
  let w := aopWidth op
  let c := if s.aopCode op a ord.isSome = cOK then s.reqRegion by_ a w else cOK
  if c ≠ cOK then s.refuseReq by_ a 0x21 c
  else
    let r := (s.servedBy by_ a).atomic op a x ord (if fetch then .out a w else .none)
    if r.1 = cOK then r.2 else r.2.refuseReq by_ a 0x40 r.1

/-- MEMORY_ATOMIC (R303 to R306). -/
def execMemoryAtomic (by_ : Requester) (addr : BitVec 48) (op : Fin 16) (operand : Word) (ord : Option (Nat × Nat))
    (fetch : Bool) (s : State) : Res :=
  let a := addr.toNat
  let fits := (match ord with
    | none => true
    | some o => decide (o.1 < 64 ∧ 1 ≤ o.2 ∧ o.2 ≤ 64) && op.val == 3)
  wellFormed (!reqFetches by_ && fits && op.val != 0)
    (s.request by_ (.memoryAtomic by_ addr op operand ord fetch) a (aopWidth op.val) none
      (some (s.atomicNow by_ a op.val operand.toNat ord fetch)))

end Sys2Proof.Machine
end

