-- ==== Sys2Proof/Machine/Router.lean ====
section
/-! DEFINITION. The routers: dimension order, port choice, reversal, transit, multicast, discards and their
answers (R334 to R344, R373). -/

namespace Sys2Proof.Machine

/-! ## Direction (R336, R339) -/

/-- A direction as TOR.LINK.FACING codes it: twice the axis, plus 1 for negative. -/
abbrev Dir := Nat

/-- The other way along the axis. -/
def revDir (d : Dir) : Dir := if d % 2 = 0 then d + 1 else d - 1

/-- Direction along an axis toward a coordinate (R336): whether it is negative. -/
def State.towardNeg (s : State) (ax cur dst : Nat) : Bool :=
  let e := s.mExt ax
  if s.isRing ax then
    let d := (dst + e - cur % e) % e
    !decide (d ≤ e - d)
  else !decide (s.slicePos ax cur < s.slicePos ax dst)

/-- The first axis whose coordinate does not match. -/
def State.axisTo (s : State) (dst : Nat) : Option Nat :=
  (List.range 3).find? (fun ax => coordOf s.nodeId ax != coordOf dst ax)

/-- The direction a packet goes on in, that came in by `from_`: one reversed on this axis and a foreign one keep
theirs; a multicast keeps to its own. -/
def State.dirFor (s : State) (p : Packet) (from_ : Option Dir) : Option Dir :=
  let same : Option Dir := from_.map revDir
  if bitAt p.w2 21 then some (2 * fld p.w2 20 19 + fld p.w2 18 18)
  else if s.foreign p then same
  else
    match s.axisTo (pktDst p) with
    | none => none
    | some ax =>
      match same with
      | some d => if bitAt p.w0 15 && d / 2 == ax then some d
          else some (2 * ax + b2n (s.towardNeg ax (coordOf s.nodeId ax) (coordOf (pktDst p) ax)))
      | none => some (2 * ax + b2n (s.towardNeg ax (coordOf s.nodeId ax) (coordOf (pktDst p) ax)))

/-! ## Port (R337) -/

/-- Ports of a direction that may be taken from a die: those of the nearest die that has any. -/
def State.nearPorts (s : State) (die dir : Nat) : List Nat :=
  let l := s.dirPorts dir
  let on (d : Nat) : List Nat := l.filter (fun p => p / 3 == d)
  ([die, die ^^^ 1, die ^^^ 2, die ^^^ 3].map on).find? (fun l => l != []) |>.getD []

/-- The port a packet takes in a direction. -/
def State.pickPort (s : State) (die dir : Nat) (p : Packet) : Option Nat :=
  let l := s.nearPorts die dir
  if l = [] then none else l[(pktSrc p + pktDst p) % l.length]?

/-! ## Answers and discards -/

/-- A request is answered by a NAK to its source (R339, R373). -/
def State.sendNak (s : State) (die : Nat) (p : Packet) (status : Nat) : State :=
  let k := s.mkPacket (pktSrc p) 0x0B 0 (pktTag p) (pktAddr p) (status * 2 ^ 24) 0 []
  if pktSrc p = s.nodeId then { s with link := { s.link with arrivals := s.link.arrivals ++ [(0, k)] } }
  else s.sendPacket die k

/-- A packet that a NAK answers. -/
def isRequest (p : Packet) : Bool :=
  let t := pktType p
  t == 0x01 || t == 0x02 || t == 0x03 || t == 0x04 || t == 0x10

/-- A NAK for a discarded packet: one for a packet of another slice goes back the way that packet came, as a part of its
transit (R339, R343, R373). -/
def State.nakBack (s : State) (die : Nat) (p : Packet) (from_ : Option Dir) (status : Nat) : State :=
  if !s.foreign p then s.sendNak die p status
  else
    let k := s.mkPacket (pktSrc p) 0x0B 0 (pktTag p) (pktAddr p) (status * 2 ^ 24) 0 []
    let k := { k with w0 := setBit (setBit (setFld k.w0 31 16 (fld p.w0 31 16)) 47 true) 15 true }
    match from_.bind (fun d => s.pickPort die d k) with
    | none => s.addReg (pRTR die) 0x140 1
    | some o => s.setPort o ((s.port o).setOutBuf 3 ((s.port o).out3 ++ [{ pkt := k, need := bufUnits k + 144, slot := 0, inVc := 3 }]))

/-- A packet that meets a missing direction is discarded (R339 case 3): a request draws a NAK, another packet is
counted. -/
def State.lostPacket (s : State) (die : Nat) (p : Packet) (from_ : Option Dir) : State :=
  let s := s.raise (pRTR die) 0
  if !isRequest p then s.addReg (pRTR die) 0x140 1 else s.nakBack die p from_ 0x40

/-! ## Outputs -/

/-- Whether a port's version carries a packet (R373). -/
def carriedBy (htl : Nat) (p : Packet) : Bool :=
  (2 ≤ htl || (!bitAt p.w2 21 && !bitAt p.w2 44)) && (3 ≤ htl || (!pktXt p && !(pktType p == 0x10 && bitAt p.w3 44)))

/-- The neighbour in a direction. -/
def State.neighbour (s : State) (dir : Dir) : Option Nat :=
  (s.nextCoord (dir / 2) (coordOf s.nodeId (dir / 2)) (dir % 2 == 1)).map (fun c => withCoord s.nodeId (dir / 2) c)

/-- A packet as it leaves in a direction: it enters a transit segment when the next node is outside its slice,
and leaves one on this node when this is its own slice (R343). -/
def State.transitHead (s : State) (dir : Dir) (p : Packet) : Packet :=
  if s.foreign p then p
  else
    let out := (match s.neighbour dir with
      | none => false
      | some n => !s.inSlice n)
    { p with w0 := setBit p.w0 47 out }

/-- Free units a packet needs (R341): `p` as it came, `q` as it leaves. -/
def State.unitsNeeded (s : State) (slot die : Nat) (from_ : Option Dir) (dir : Dir) (port : Nat) (p q : Packet) : Nat :=
  let u := bufUnits q
  let mcast := bitAt q.w2 21
  let last := if mcast then fld q.w2 17 13 == 1 else s.neighbour dir == some (pktDst q)
  let entering := slot == 0 || from_.map revDir != some dir || port / 3 != die
  if laneOf p ≠ laneOf q then u + 144
  else if !s.foreign q && (!s.isRing (dir / 2) || last) then u
  else if entering then u + 144
  else u

/-- A packet is given to an output, or refused by the version of its port: whatever its TYPE, its source receives a NAK
(R373). `shared` says that a copy of it holds its units (R351). -/
def State.toOutput (s : State) (slot die vc : Nat) (from_ : Option Dir) (dir : Dir) (port : Nat) (p : Packet) (shared : Bool) :
    State :=
  let q := s.transitHead dir p
  if !carriedBy (s.htl port) q then
    let s := if shared then s else s.drainInput slot vc p
    (if isRequest p then s else s.addReg (pRTR die) 0x140 1).nakBack die p from_ cVERSION
  else
    let o : OutPkt := { pkt := q, need := s.unitsNeeded slot die from_ dir port p q, slot := slot, inVc := vc, shared := shared }
    s.setPort port ((s.port port).setOutBuf (laneOf q) ((s.port port).outBuf (laneOf q) ++ [o]))

/-- A packet is reversed when the ring or a transit permit allows it (R339 cases 1 and 2). -/
def State.mayReverse (s : State) (dir : Dir) (p : Packet) : Bool :=
  !bitAt p.w0 15 && !bitAt p.w2 21 && !s.foreign p &&
    (s.isRing (dir / 2) ||
      (s.mWrap (dir / 2) && (match s.rtrPage with
        | none => false
        | some d => bitAt (s.reg (pRTR d) 0x118) 0)))

/-- A packet goes on in a direction, the other way, or is discarded (R337, R339). -/
def State.routeTo (s : State) (slot die vc : Nat) (from_ : Option Dir) (dir : Dir) (p : Packet) : State :=
  match s.pickPort die dir p with
  | some o => s.toOutput slot die vc from_ dir o p false
  | none =>
    let back := if s.mayReverse dir p then s.pickPort die (revDir dir) p else none
    match back with
    | some o => s.toOutput slot die vc from_ (revDir dir) o { p with w0 := setBit p.w0 15 true } false
    | none => (s.drainInput slot vc p).lostPacket die p from_

/-! ## One packet at a router -/

/-- RTR.TRANSIT.CARRY. -/
def State.carry (s : State) : Bool :=
  match s.rtrPage with
  | none => false
  | some d => bitAt (s.reg (pRTR d) 0x118) 1

/-- A packet of an input slot leaves the torus at this node. -/
def State.deliver (s : State) (slot : Nat) (p : Packet) : State :=
  { s with link := { s.link with arrivals := s.link.arrivals ++ [(slot, p)] } }

/-- A packet that its destination takes out of the input buffer: a COLL packet holds its units there until its collective
takes it (R351). -/
def State.drainHere (s : State) (slot vc : Nat) (p : Packet) : State :=
  if pktType p = 0x10 then s else s.drainInput slot vc p

/-- A foreign packet (R343): discarded without CARRY or when it is addressed here, else carried on. -/
def State.routeForeign (s : State) (slot die vc : Nat) (from_ : Option Dir) (p : Packet) : State :=
  if pktDst p = s.nodeId then (((s.drainInput slot vc p).addReg (pRTR die) 0x138 1).raise (pRTR die) 1)
  else if !s.carry then (s.drainInput slot vc p).addReg (pRTR die) 0x138 1
  else
    match s.dirFor p from_ with
    | none => (s.drainInput slot vc p).addReg (pRTR die) 0x140 1
    | some d => (s.addReg (pRTR die) 0x130 1).routeTo slot die vc from_ d p

/-- A multicast (R344): delivered at every node it reaches, and forwarded from all but the last. -/
def State.routeMcast (s : State) (slot die vc : Nat) (from_ : Option Dir) (p : Packet) : State :=
  let dir := 2 * fld p.w2 20 19 + fld p.w2 18 18
  let hops := fld p.w2 17 13
  let here := slot != 0
  let s := if here then s.deliver slot p else s
  let shared := here && pktType p == 0x10
  if here && decide (hops ≤ 1) then s.drainHere slot vc p
  else
    let q := if here then { p with w2 := setFld p.w2 17 13 (hops - 1) } else p
    match s.pickPort die dir q with
    | some o => s.toOutput slot die vc from_ dir o q shared
    | none => (if shared then s else s.drainInput slot vc p).lostPacket die p from_

/-- A router takes a packet. -/
def State.routePacket (s : State) (slot die vc : Nat) (from_ : Option Dir) (p : Packet) : State :=
  if slot ≠ 0 ∧ s.foreign p then s.routeForeign slot die vc from_ p
  else if bitAt p.w2 21 then s.routeMcast slot die vc from_ p
  else
    match s.dirFor p from_ with
    | none => (s.drainHere slot vc p).deliver slot { p with w0 := setBit p.w0 47 false }
    | some d => s.routeTo slot die vc from_ d p

/-- The first packet of an input slot on a virtual channel, and the state without it there. Behind a COLL packet that waits
for its collective the VC2 packets of its port wait too (R351). -/
def State.takeInput (s : State) (slot die vc : Nat) : Option (Packet × State) :=
  if slot = 0 then
    (s.link.inj.find? (fun e => e.1 == die && laneOf e.2 == vc)).map
      (fun e => (e.2, { s with link := { s.link with inj := s.link.inj.erase e } }))
  else if vc = 2 ∧ s.collHeld slot ≠ [] then none
  else
    let k := s.port (slot - 1)
    match k.inBuf vc with
    | [] => none
    | p :: r => some (p, s.setPort (slot - 1) (k.setInBuf vc r))

/-- PACKET_FORWARD (R336 to R344). -/
def execPacketForward (slot : Fin 13) (die : DieId) (vc : VcId) (s : State) : Res :=
  let n := slot.val
  let from_ : Option Dir := if n = 0 then none else some (s.rf (pTOR (n - 1)) 0x108 11 9)
  wellFormed (decide (n = 0 ∨ (n - 1) / 3 = die.val))
    (match s.takeInput n die.val vc.val with
    | none => .fault .notEnabled
    | some (p, t) => happens (s.goes p) (t.routePacket n die.val vc.val from_ p))

/-! ## Service at the destination (R333, R309, R316, R339) -/

/-- The die that is home to a local address (R338). -/
def State.homeDie (s : State) (a : Nat) : Nat :=
  match s.place a with
  | .hbm => s.homeSlice a / 8
  | .scratch sl => sl / 8
  | .store c _ => c / 36
  | _ => 0

/-- A write of another node: none while it must wait, else a code and the state (R42, R120, R266, R267). -/
def State.remoteWrite (s : State) (a : Nat) (bs : List Byte) : Option (Nat × State) :=
  let c := s.placeCode a
  if c ≠ cOK then some (c, s)
  else
    match s.place a with
    | .store core off =>
      if (linesOf off bs.length).any (fun l => s.pinned core l) then none else some (cOK, s.writeStore core off bs)
    | .hbm =>
      let code := s.regionCode none a bs.length
      if (s.heldIn a bs.length).isSome || s.closing a bs.length then none
      else some (code, if code = cOK then s.hbmWrite [] a bs else s)
    | _ => some (cOK, s.writeLocal a bs)

/-- A response to a request: TYPE, header word 2, payload. -/
def State.respond (s : State) (p : Packet) (type lenM1 addr w2 : Nat) (data : List Byte) : State :=
  s.sendPacket (s.homeDie (pktAddr p)) (s.mkPacket (pktSrc p) type lenM1 (pktTag p) addr w2 0 data)

/-- A NAK with a status. -/
def State.refusePacket (s : State) (p : Packet) (code : Nat) : State := s.respond p 0x0B 0 (pktAddr p) (code * 2 ^ 24) []

/-- The lines of a WR, one write each: none while one must wait; the first code that refuses. -/
def State.wrLines (s : State) (a : Nat) (bs : List Byte) : Option (Nat × State) :=
  (memLines a bs.length).foldl (fun (acc : Option (Nat × State)) (l : Nat) =>
    match acc with
    | none => none
    | some (c, t) =>
      if c ≠ cOK then some (c, t)
      else
        let lo := max a (l * 64)
        let hi := min (a + bs.length) (l * 64 + 64)
        t.remoteWrite lo ((bs.drop (lo - a)).take (hi - lo))) (some (cOK, s))

/-- A WR is served: written, poisoned where it is marked, and answered. -/
def State.serveWr (s : State) (p : Packet) : Option State :=
  match s.wrLines (pktAddr p) p.payload with
  | none => none
  | some (c, t) =>
    if c ≠ cOK then some (t.refusePacket p c)
    else
      let t := if bitAt p.w2 22 then t.poisonRange (pktAddr p) p.payload.length else t
      some (t.respond p 0x08 0 (pktAddr p) 0 [])

/-- A request packet whose memory is in hold waits at the controller of its first line there, as one request (R299, R316);
any other is served, unless it must wait. -/
def State.servePacket (s : State) (c : Instr) (p : Packet) (a n : Nat) (cls : Option Nat) (now : State → Option State) : Res :=
  let t := s.takeArrival p
  let u := (match t.heldIn a n with
    | some h => t.holdReq { what := .cmd c, line := h / 64, cls := cls, die := s.homeDie a }
    | none => (now t).map (fun v => v.servedBy .torus a))
  match u with
  | none => .fault .notEnabled
  | some v => happens s.live v

/-- WR (R333, R344). -/
def execWr (p : Packet) (s : State) : Res :=
  wellFormed (pktOk 0x01 1 128 p) (s.servePacket (.wr p) p (pktAddr p) p.payload.length none (fun t => t.serveWr p))

/-- Lines of a read cut into packets: runs of clean lines, and each poisoned line alone (R333). -/
def State.cutLines (s : State) (ls : List Nat) : List (List Nat × Bool) :=
  ls.foldl (fun (acc : List (List Nat × Bool)) (l : Nat) =>
    if s.lineBad l then acc ++ [([l], true)]
    else
      match acc.getLast? with
      | some (r, false) => acc.dropLast ++ [(r ++ [l], false)]
      | _ => acc ++ [([l], false)]) []

/-- An RD is served: the lines that its units name. -/
def State.serveRd (s : State) (p : Packet) : Option State :=
  let first := pktAddr p / 64
  let ls := rangeFrom first (fld p.w0 14 8 + 1)
  let codes := ls.map (fun l => s.placeCode (l * 64))
  match codes.find? (fun c => c != cOK) with
  | some c => some (s.refusePacket p c)
  | none =>
    if s.closing (first * 64) (64 * ls.length) then none
    else
      let s := ls.foldl (fun (s : State) (l : Nat) => (s.readReq (l * 64) 64 (some (fld p.w2 59 58))).2) s
      some ((s.cutLines ls).foldl (fun (s : State) (c : List Nat × Bool) =>
        let a := (c.1.headD first) * 64
        s.respond p 0x09 (c.1.length - 1) a (b2n c.2 * 2 ^ 22) (s.bytes a (64 * c.1.length))) s)

/-- RD (R333). -/
def execRd (p : Packet) (s : State) : Res :=
  wellFormed (pktOk 0x02 0 0 p)
    (s.servePacket (.rd p) p (pktAddr p / 64 * 64) (64 * (fld p.w0 14 8 + 1)) (some (fld p.w2 59 58)) (fun t => t.serveRd p))

/-- An AOP is served by its adder (R266, R267, R303, R305, R309). -/
def State.serveAop (s : State) (p : Packet) : State :=
  let a := pktAddr p
  let op := fld p.w2 63 60
  let w := aopWidth op
  let fetch := bitAt p.w2 45
  let tag : Option (Nat × Nat) := if bitAt p.w2 44 then some (fld p.w2 57 52, fld p.w2 51 46 + 1) else none
  let code := if s.absent a then cDEPENDENCY else s.aopCode op a tag.isSome
  let code := if code ≠ cOK then code else if s.placeCode a ≠ cOK then s.placeCode a else s.regionCode none a w
  if code ≠ cOK then s.refusePacket p code
  else if bitAt p.w2 22 then
    let old := s.memNat a w
    if fetch then (s.poisonRange a w).respond p 0x0A 0 a (2 ^ 22) (natLe 64 old) else (s.poisonRange a w).respond p 0x08 0 a 0 []
  else
    let r := s.atomic op a (leNat (p.payload.take w)) tag (.remote (pktSrc p) (pktTag p) a (s.homeDie a) fetch)
    if r.1 = cOK then r.2 else r.2.refusePacket p r.1

/-- AOP (R309). -/
def execAop (p : Packet) (s : State) : Res :=
  wellFormed (pktOk 0x03 1 1 p)
    (s.servePacket (.aop p) p (pktAddr p) (aopWidth (fld p.w2 63 60)) none
      (fun t => if t.closing (pktAddr p) (aopWidth (fld p.w2 63 60)) then none else some (t.serveAop p)))

/-! ## Answers at the source -/

/-- A request of this node that a response names. -/
def State.findReq (s : State) (p : Packet) : Option OutReq := s.link.reqs.find? (fun r => r.tag == pktTag p)

/-- The state without a request. -/
def State.dropReq (s : State) (tag : Nat) : State :=
  { s with link := { s.link with reqs := s.link.reqs.filter (fun r => r.tag != tag) } }

/-- A DMA instruction in progress that a request belongs to. -/
def State.reqJob (s : State) (r : OutReq) : Option DmaJob :=
  (s.core r.core).dma.find? (fun j => j.ctx == r.ctx && j.ins.seq == r.seq)

/-- A request is answered: one answer less is due; with the last the DMA instruction or the census has one less
open. -/
def State.closeReq (s : State) (r : OutReq) : State :=
  if 1 < r.due then
    { s with link := { s.link with reqs := s.link.reqs.map (fun q => if q.tag = r.tag then { q with due := q.due - 1 } else q) } }
  else
    let s := s.dropReq r.tag
    match s.reqJob r with
    | some _ => s.mapJob r.core r.ctx r.seq (fun j => { j with open_ := j.open_ - 1 })
    | none => s.censusAck r.core r.ctx r.seq

/-- An ACK ends a write or an atomic. -/
def State.takeAck (s : State) (p : Packet) : State :=
  match s.findReq p with
  | none => s
  | some r => s.closeReq r

/-- ACK (R333). -/
def execAck (p : Packet) (s : State) : Res :=
  wellFormed (pktOk 0x08 0 0 p) (happens s.live ((s.takeArrival p).takeAck p))

/-- RDATA is written by the copy that asked for it: none while the write must wait. -/
def State.takeRdata (s : State) (p : Packet) : Option State :=
  match s.findReq p with
  | none => some s
  | some r =>
    match s.reqJob r with
    | none => some (s.dropReq r.tag)
    | some j =>
      let j := { j with
        row := r.row
        byte := r.byte }
      let a := (s.gaddr j.ins.desc.w1).loc + r.row * fld j.ins.desc.w4 31 0 + r.byte
      let bs := (p.payload.drop (a % 64)).take (s.pieceLen j)
      match s.dmaDeliver r.core j bs (bitAt p.w2 22) with
      | none => none
      | some (cls, code, t) => some (if code = cOK then t.closeReq r else (t.dropReq r.tag).dmaEnd r.core r.ctx j.ins cls code)

/-- RDATA (R308, R333). -/
def execRdata (p : Packet) (s : State) : Res :=
  wellFormed (pktOk 0x09 1 128 p)
    (match (s.takeArrival p).takeRdata p with
    | none => .fault .notEnabled
    | some t => happens s.live t)

/-- ARESP brings the old word to RET: none while that line is pinned (R120, R309). -/
def State.takeAresp (s : State) (p : Packet) : Option State :=
  match s.findReq p with
  | none => some s
  | some r =>
    match s.reqJob r with
    | none => some (s.dropReq r.tag)
    | some _ =>
      match r.ret with
      | none => some (s.closeReq r)
      | some off =>
        if s.pinned r.core (off / 64) then none
        else
          let s := s.writeStore r.core off (p.payload.take 8)
          let s := if bitAt p.w2 22 then { s with mem := s.mem.setPoison (storeAddr r.core off / 64) true } else s
          some (s.closeReq r)

/-- ARESP (R309, R333). -/
def execAresp (p : Packet) (s : State) : Res :=
  wellFormed (pktOk 0x0A 1 1 p)
    (match (s.takeArrival p).takeAresp p with
    | none => .fault .notEnabled
    | some t => happens s.live t)

/-- The context whose sync instruction a NAK answers. -/
def State.nakWait (s : State) (tag : Nat) : Option (Nat × Nat × WaitSt) :=
  allCtxs.findSome? (fun c =>
    match (s.ctx (c / 2) (c % 2)).wait with
    | some w => if w.tag == tag && w.node != s.nodeId then some (c / 2, c % 2, w) else none
    | none => none)

/-- The collective whose packets carry a tag: die, axis, run. -/
def State.nakColl (s : State) (tag : Nat) : Option (Nat × Nat × CollRun) :=
  (s.coll.run.find? (fun e => e.2.tag == tag)).map (fun e => (e.1 / 3, e.1 % 3, e.2))

/-- A NAK ends what asked: the DMA instruction, the census update, the sync instruction or the collective, with
the code it carries (R311, R339, R373). -/
def State.takeNak (s : State) (p : Packet) : State :=
  let code := pktStatus p
  let cls := nakClass code
  match s.findReq p with
  | some r =>
    let s := s.dropReq r.tag
    (match s.reqJob r with
    | some j => s.dmaEnd r.core r.ctx j.ins (dmaNakClass j.ins.desc code) code
    | none => s.censusNak r.core r.ctx r.seq (atomNakClass code) code)
  | none =>
    match s.nakWait (pktTag p) with
    | some (n, x, w) =>
      let s := s.setCtx n x { s.ctx n x with
        wait := none
        heldWake := none }
      (s.finishIns n x w.ins).faultCtx n x { unit := 7, cls := cls, code := code, pc := w.ins.pc }
    | none =>
      match s.nakColl (pktTag p) with
      | some (die, ax, r) => s.collFail die ax r code none
      | none => s

/-- NAK (R339). -/
def execNak (p : Packet) (s : State) : Res :=
  wellFormed (pktOk 0x0B 0 0 p) (happens s.live ((s.takeArrival p).takeNak p))

/-- MGMT (R333): the MSC takes it, during a freeze too (R466). -/
def execMgmt (p : Packet) (s : State) : Res :=
  wellFormed (pktOk 0x18 1 128 p) (occurs true ((s.takeArrival p).emit (.mgmt p)))

end Sys2Proof.Machine
end

