-- ==== Sys2Proof/Machine/Hcq.lean ====
section
/-! DEFINITION. Host command queues: doorbells, fetch and sequence numbers, the commands, transfers, snapshots,
records (R392 to R407), and the start and step barrier (R361, R362). -/

namespace Sys2Proof.Machine

/-! ## Queues (R394 to R397, R406, R407) -/

/-- EN of a queue. -/
def State.queueOn (s : State) (q : Nat) : Bool := bitAt (s.reg pCFE (qOff q 0x00)) 0

/-- A write of CFE[1].DOORBELL[q]. -/
def State.doorbell (s : State) (q tail : Nat) : Nat × State :=
  if !s.queueOn q then (cSTATE, s)
  else if 2 ^ s.rf pCFE (qOff q 0x00) 23 20 < (tail + 2 ^ 32 - s.rf pCFE (qOff q 0x20) 31 0) % 2 ^ 32 then (cRANGE, s)
  else (cOK, s.setRf pCFE (qOff q 0x20) 63 32 tail)

/-- A doorbell reaches its page. -/
def State.reaches (s : State) (src : Src) : Bool :=
  match src with
  | .host => s.hostReach
  | .program n x => s.runs n.val x.val
  | .keyhole => true

/-- DOORBELL (R394, R407): every refusal raises QERR. -/
def execDoorbell (q : QueueId) (tail : BitVec 32) (src : Src) (s : State) : Res :=
  let eff := s.doorbell q.val tail.toNat
  let s1 := if eff.1 ≠ cOK && s.reaches src then s.raise pCFE 1 else s
  s1.serveRow pCFE1 (0x100 + 8 * q.val) src eff

/-- Scratch of wicket service (R418). -/
def wicketSpan (a n : Nat) : Bool := decide (scratchBase ≤ a ∧ a + n ≤ scratchBase + 0x1000000)

/-- The refusal of EN = 1 (R407, R419). -/
def State.queueCheck (s : State) (q : Nat) (v : Word) : Nat :=
  let sq := fld v 23 20
  let cq := fld v 27 24
  let base := (s.reg pCFE (qOff q 0x08)).toNat
  let size := 64 * 2 ^ sq
  let inMem := (match s.place base, s.place (base + size - 1) with
    | .hbm, .hbm => true
    | .scratch _, .scratch _ => true
    | _, _ => false)
  if cq < 4 ∨ sq < 4 ∨ 12 < sq ∨ !inMem then cRANGE
  else if base % size ≠ 0 ∨ (s.reg pCFE (qOff q 0x10)).toNat % (32 * 2 ^ cq) ≠ 0 then cALIGN
  else if !s.qpUsable (fld v 29 28) (fld v 55 32) then cDEPENDENCY
  else if s.stage < 3 ∧ (!wicketSpan base size ∨ !wicketSpan (s.reg pCFE (qOff q 0x10)).toNat (32 * 2 ^ cq)) then cDEPENDENCY
  else cOK

/-- Writable bits of Q[q].CFG other than EN. -/
def queueBits : Word := mask 55 32 ||| mask 29 20

/-- A write of Q[q].CFG (R54, R407): a queue takes v1 each time it is enabled. -/
def State.queueWrite (s : State) (q : Nat) (v : Word) : Nat × State :=
  let old := s.reg pCFE (qOff q 0x00)
  if bitAt old 0 && (old &&& queueBits) != (v &&& queueBits) then (cLOCKED, s)
  else if !bitAt v 0 then (cOK, s.setReg pCFE (qOff q 0x00) (v &&& queueBits))
  else if bitAt old 0 then (cOK, s)
  else
    let c := s.queueCheck q v
    if c ≠ cOK then (c, s)
    else (cOK, (s.setReg pCFE (qOff q 0x00) ((v &&& queueBits) ||| BitVec.ofNat 64 (2 ^ 16 + 1))).flushRecs)

/-- QUEUE_ENABLE (R407). -/
def execQueueEnable (q : QueueId) (value : Word) (src : Src) (s : State) : Res :=
  wellFormed (bitAt value 0) (s.serveRow pCFE (qOff q.val 0x00) src (s.queueWrite q.val value))

/-- QUEUE_DISABLE (R407). -/
def execQueueDisable (q : QueueId) (value : Word) (src : Src) (s : State) : Res :=
  wellFormed (!bitAt value 0) (s.serveRow pCFE (qOff q.val 0x00) src (s.queueWrite q.val value))

/-- The descriptor that 64 bytes spell. -/
def descOf (bs : List Byte) : Desc :=
  let w (i : Nat) : Word := BitVec.ofNat 64 (leNat ((bs.drop (8 * i)).take 8))
  { w0 := w 0, w1 := w 1, w2 := w 2, w3 := w 3, w4 := w 4, w5 := w 5, w6 := w 6, w7 := w 7 }

/-- RESULT of a DUPLICATE completion (R395). -/
def State.dupResult (s : State) (q h : Nat) : Nat :=
  let done : Nat := b2n (decide (h ≤ (s.reg pCFE (qOff q 0x38)).toNat))
  match (s.queue q).hist.find? (fun e => e.1 == h) with
  | some e => done + e.2.1 * 2 ^ 16 + e.2.2 * 2 ^ 32
  | none => done + 0xFFFF * 2 ^ 16

/-- Address of the next entry of a command ring. -/
def State.nextEntry (s : State) (q : Nat) : Nat :=
  (s.reg pCFE (qOff q 0x08)).toNat + 64 * (s.rf pCFE (qOff q 0x20) 31 0 % 2 ^ s.rf pCFE (qOff q 0x00) 23 20)

/-- A request of the CFE for a byte range must wait: a pseudo-channel is in hold, or a commit window is open (R273, R316). -/
def State.memWaits (s : State) (a n : Nat) : Bool := (s.heldIn a n).isSome || s.closing a n

/-- The CFE may fetch the next entry of a queue: the one before has completed and no record of the queue is held. -/
def State.mayFetch (s : State) (q : Nat) : Bool :=
  s.live && s.queueOn q && (s.queue q).cur.isNone && s.rf pCFE (qOff q 0x20) 31 0 != s.rf pCFE (qOff q 0x20) 63 32 &&
    s.hcq.held.all (fun r => r.queue != some q) && !s.memWaits (s.nextEntry q) 64

/-- An entry is fetched and its sequence number judged (R394 steps 4 and 5, R395, R398). -/
def State.fetchCmd (s : State) (q : Nat) : State :=
  let head := s.rf pCFE (qOff q 0x20) 31 0
  let a := s.nextEntry q
  let s := (s.readReq a 64 (some 0)).2
  let d := descOf (s.bytes a 64)
  let h := d.w1.toNat
  let acc := (s.reg pCFE (qOff q 0x30)).toNat
  let s := s.setRf pCFE (qOff q 0x20) 31 0 (head + 1)
  if h = acc + 1 then
    let s := s.setReg pCFE (qOff q 0x30) (BitVec.ofNat 64 h)
    let s := s.setQueue q { s.queue q with cur := some { desc := d, hseq := h, ver := s.rf pCFE (qOff q 0x00) 17 16 } }
    if 1 ≤ fld d.w0 7 0 ∧ fld d.w0 7 0 ≤ 0x0C then s else s.completeCmd q cRANGE 0 0
  else if h ≤ acc ∧ h ≠ 0 then s.complete q h 0x40 0x10 (fld d.w0 7 0) (s.dupResult q h) none
  else s.complete q h 0x41 0x10 (fld d.w0 7 0) 0 none

/-- COMMAND_FETCH (R394, R395). -/
def execCommandFetch (q : QueueId) (s : State) : Res := happens (s.mayFetch q.val) (s.fetchCmd q.val)

/-! ## Judging a command (R398, R399) -/

/-- The HCQ version an opcode is defined from. -/
def cmdVersion (op : Nat) : Nat := if op = 0x0B then 3 else if op = 0x07 ∨ op = 0x08 then 2 else 1

/-- Commands served at S1, where nothing runs but the MSC; without a boot configuration it serves ATTEST alone (R414). -/
def mscCmds (noCfg : Bool) : List Nat := if noCfg then [0x0C] else [0x01, 0x02, 0x0C]

/-- Commands served in wicket service. -/
def wicketCmds : List Nat := [0x01, 0x02, 0x03, 0x04, 0x05, 0x06, 0x0A, 0x0C]

/-- The refusal of a command: version, fields, job state. -/
def State.judge (s : State) (c : Cmd) (checks : List Check) (states : List Nat) : Option Nat :=
  let op := fld c.desc.w0 7 0
  if c.ver < cmdVersion op then some cVERSION
  else
    match firstRefusal checks with
    | some r => some r.code
    | none =>
      if (s.stage < 3 ∧ !wicketCmds.contains op) ∨ (s.stage < 2 ∧ !(mscCmds (s.rf pCFE 0x200 35 32 == 1)).contains op) then some cSTATE
      else if !states.contains s.job then some cSTATE
      else none

/-- Whole words of a command that are reserved. -/
def resvWords (d : Desc) (ws : List Nat) : List Check := resv d 0 63 8 :: ws.map (fun w => resv d w 63 0)

/-- The state with the command of a queue in execution changed. -/
def State.mapCmd (s : State) (q : Nat) (f : Cmd → Cmd) : State :=
  s.setQueue q { s.queue q with cur := (s.queue q).cur.map f }

/-- A command of a queue is judged and executed. -/
def State.runCmd (s : State) (q op : Nat) (checks : Cmd → List Check) (states : List Nat) (eff : Cmd → State → State) : Res :=
  match (s.queue q).cur with
  | none => .fault .notEnabled
  | some c =>
    happens (s.live && !c.begun && fld c.desc.w0 7 0 == op)
      (match s.judge c (checks c) states with
      | some code => s.completeCmd q code 0 0
      | none => eff c s)

/-- Every job state but FROZEN. -/
def unfrozen : List Nat := [0, 1, 2, 3, 4, 6]

/-- Memory that a command of a queue is about to read lets it go on. -/
def State.cmdReads (s : State) (q : Nat) (spans : Desc → List (Nat × Nat)) : Bool :=
  match (s.queue q).cur with
  | none => true
  | some c => c.begun || (spans c.desc).all (fun r => !s.memWaits r.1 r.2)

/-- NOP (R398). -/
def execNop (q : QueueId) (s : State) : Res :=
  s.runCmd q.val 0x01 (fun c => resvWords c.desc [2, 3, 4, 5, 6, 7]) unfrozen (fun _ s => s.completeCmd q.val cOK 0 0)

/-- The highest version that both sides offer. -/
def offered (w : Word) : Nat := if bitAt w 2 then 3 else if bitAt w 1 then 2 else if bitAt w 0 then 1 else 0

/-- A queue that is enabled takes the version; VER of a disabled one reads 0 (R406). -/
def State.takeVersion (s : State) (q v : Nat) : State := if s.queueOn q then s.setRf pCFE (qOff q 0x00) 17 16 v else s

/-- NEGOTIATE (R374, R398). -/
def execNegotiate (q : QueueId) (s : State) : Res :=
  s.runCmd q.val 0x02 (fun c => resvWords c.desc [3, 4, 5, 6, 7] ++ [resv c.desc 2 63 3, (2, 0, cVERSION, offered c.desc.w2 == 0)])
    unfrozen (fun c s => (s.takeVersion q.val (offered c.desc.w2)).completeCmd q.val cOK 0 (offered c.desc.w2))

/-! ## LOAD, UNLOAD, START, STOP (R400, R401) -/

/-- Entry word of context `x` of core `n` in an image. -/
def State.imageEntry (s : State) (image n x : Nat) : Nat := s.memNat (image + 0x40 + 16 * n + 8 * x) 8

/-- The header of an image disagrees with LENGTH. -/
def State.badImage (s : State) (image len : Nat) : Bool :=
  s.memNat image 2 != 3 || s.memNat (image + 2) 6 != 0 || s.memNat (image + 8) 8 != len || s.memNat (image + 16) 48 != 0 ||
    decide (len < 0x40 + 288 * 8)

/-- An entry that LOAD refuses: of context 1 without leaf mode, or in wicket service of a core outside C0. -/
def State.badEntry (s : State) (image : Nat) : Bool :=
  (List.range 144).any (fun n =>
    (s.imageEntry image n 1 != 0 && !s.leaves n) ||
      (decide (s.stage < 3 ∧ s.clusterCores 0 0 ≤ n) && (s.imageEntry image n 0 != 0 || s.imageEntry image n 1 != 0)))

/-- Conditions of LOAD. -/
def State.loadChecks (s : State) (c : Cmd) : List Check :=
  let image := fld c.desc.w2 47 0
  let len := fld c.desc.w3 39 0
  let stop := image + max len (0x40 + 288 * 8)
  let outside := if s.stage < 3 then !wicketSpan image (stop - image) else decide (s.hbmEnd < stop)
  resvWords c.desc [4, 5, 6, 7] ++
    [ resv c.desc 2 63 48, (2, 0, cRANGE, outside), (2, 0, cALIGN, image % 4096 != 0),
      resv c.desc 3 63 40, (3, 0, cRANGE, !outside && (s.badImage image len || s.badEntry image)) ]

/-- In boot mode 0, wicket service refuses LOAD and START (R419). -/
def State.wicketNoJob (s : State) : Bool := decide (s.stage < 3) && s.rf pCFE 0x200 17 16 == 0

/-- The image is loaded and digested. -/
def State.loadImage (s : State) (image len : Nat) : State :=
  let dig := sha3 (s.bytes image len)
  let s := (List.range 4).foldl (fun (s : State) (i : Nat) =>
    s.setReg pCFE (0x108 + 8 * i) (BitVec.ofNat 64 (leNat ((dig.drop (8 * i)).take 8)))) s
  let es := allCtxs.foldl (fun (t : Tab Nat) (c : Nat) => Tab.set t 0 c (s.imageEntry image (c / 2) (c % 2))) []
  ({ s with hcq := { s.hcq with
      image := some (image, len)
      entries := es } } : State).setJob 1

/-- LOAD (R400). -/
def execLoad (q : QueueId) (s : State) : Res :=
  if s.cmdReads q.val (fun d => [(fld d.w2 47 0, fld d.w3 39 0)]) then
    s.runCmd q.val 0x03 s.loadChecks (if s.wicketNoJob then [] else [0]) (fun c s =>
      (s.loadImage (fld c.desc.w2 47 0) (fld c.desc.w3 39 0)).completeCmd q.val cOK 0 0)
  else .fault .notEnabled

/-- Every context is reset (R247). -/
def State.resetAll (s : State) : State := allCtxs.foldl (fun (s : State) (c : Nat) => s.resetCtx (c / 2) (c % 2)) s

/-- No barrier is in progress; a START that waits for one ends with STATE. -/
def State.endBarrier (s : State) : State :=
  let s := { s with coll := { s.coll with
    barDue := []
    barWait := false
    barEarly := false
    barLate := false } }
  match s.hcq.starting with
  | none => s
  | some q => ({ s with hcq := { s.hcq with starting := none } } : State).completeCmd q cSTATE 0 0

/-- UNLOAD (R398). -/
def execUnload (q : QueueId) (s : State) : Res :=
  s.runCmd q.val 0x04 (fun c => resvWords c.desc [2, 3, 4, 5, 6, 7]) [1, 6] (fun _ s =>
    let t := s.endBarrier.resetAll
    (({ t with hcq := { t.hcq with
      image := none
      entries := [] } } : State).setJob 0).completeCmd q.val cOK 0 0)

/-- STOP (R398). -/
def execStop (q : QueueId) (s : State) : Res :=
  s.runCmd q.val 0x06 (fun c => resvWords c.desc [2, 3, 4, 5, 6, 7]) [2, 3, 6] (fun _ s =>
    (((s.setJob 4).endBarrier.resetAll).setJob 1).completeCmd q.val cOK 0 0)

/-- Contexts whose entry is not 0. -/
def State.startCtxs (s : State) : List Nat := s.hcq.entries.map (fun e => e.1)

/-- Held pages of the package that hold the slice, the profiles, the interleave, the LLC modes and the collective modes of a
job: routers, generations, memory, LLC slices, collective engines. -/
def configPages : List Nat :=
  (List.range 4).map pRTR ++ [pGEN] ++ (List.range 20).map pMEM ++ (List.range 32).map pLLC ++ (List.range 4).map pCOL

/-- Pages of a core that a started context runs on. -/
def corePages (n : Nat) : List Nat := [pCOR n, pQNT n, pVEC n, pSYN n] ++ (List.range 4).map (fun a => pMXA n a)

/-- Held pages that the job's configuration names and that are not enabled (R63). DESIGN CHOICE (log 60): they are the pages of
the cores with an entry in the image and, of those that hold the configuration's registers, the powered ones. -/
def State.pagesMissing (s : State) : Bool :=
  (s.startCtxs.flatMap (fun c => corePages (c / 2)) ++ configPages.filter s.pagePowered).any (fun p => !s.enabled p)

/-- A malformed step log (R231). -/
def State.badLog (s : State) : Bool :=
  let n := s.logSize
  n != 0 && (decide (n < 6 ∨ 20 < n) || decide (s.hbmEnd < s.rf pCFE 0x1C8 47 12 * 4096 + 64 * 2 ^ n))

/-- The refusal of START beyond its fields (R34, R63, R231, R446). -/
def State.startCode (s : State) : Nat :=
  if s.pwr.present ≠ [] ∨ s.hcq.starting.isSome ∨ s.pwr.stopped = some 4 ∨ s.pwr.stopped = some 5 then cSTATE
  else if s.rf pCFE 0x180 1 0 = 1 ∧ (List.range 32).any s.cacheMode then cCONFLICT
  else if s.pagesMissing then cDEPENDENCY
  else if s.badLog then cRANGE
  else cOK

/-- The configuration digest (R488). -/
def State.configDigest (s : State) : List Byte :=
  let r (p off : Nat) : List Byte := natLe 8 (s.reg p off).toNat
  sha3 (natLe 8 (s.rf pCFE 0x180 1 0) ++ r pCFE 0x1D8 ++ r pCFE 0x1C8 ++ r pGEN 0x100 ++ r (pRTR 0) 0x108 ++
    r (pRTR 0) 0x110 ++ r (pRTR 0) 0x118 ++ r (pMEM 0) 0x100 ++ r (pMEM 0) 0x110 ++
    (List.range 32).flatMap (fun i => r (pLLC i) 0x100) ++ r (pCOL 0) 0x100 ++ r (pTXN 0) 0x100 ++ r (pTXN 0) 0x118 ++
    (List.range 144).flatMap (fun n => r (pCOR n) 0x100) ++ (List.range 144).flatMap (fun n => r (pVEC n) 0x138))

/-- Rotations restart at slot 0 at job start (R128, R250, R342). -/
def State.restartTurns (s : State) : State :=
  { s with
    sync := { s.sync with rot := [] }
    link := { s.link with ports := s.link.ports.map (fun e =>
      (e.1, { e.2 with
        slot := 0
        rot0 := 0
        rot1 := 0
        rot2 := 0
        rot3 := 0
        rotF := 0 })) }
    hbm := { s.hbm with stk := s.hbm.stk.map (fun e => (e.1, { e.2 with slot := 0 })) }
    cores := s.cores.map (fun e =>
      (e.1, { e.2 with
        turnV := 0
        turnQ := 0
        turnD := 0 })) }

/-- An accepted START (R36, R231, R401, R443): its contexts are reset and their islands ramp up, and the barrier
begins. -/
def State.startJob (s : State) (q : Nat) : State :=
  let dig := s.configDigest
  let cs := s.startCtxs
  let s := cs.foldl (fun (s : State) (c : Nat) => s.resetCtx (c / 2) (c % 2)) s
  let s := s.setReg pCFE 0x180 (BitVec.ofNat 64 (s.rf pCFE 0x180 1 0 * 17))
  let s := s.setReg pCFE 0x1D0 0
  let s := { s with
    step := {}
    coll := { s.coll with dead := [] }
    hcq := { s.hcq with
      cfgDigest := dig
      starting := some q
      commits := [] } }
  let s := cs.foldl (fun (s : State) (c : Nat) => s.reclaim (c / 2)) s
  let isl := cs.foldl (fun (l : List Nat) (c : Nat) => insSet l (s.islandOf (c / 2))) []
  let s := isl.foldl (fun (s : State) (i : Nat) => s.requestRamp i (s.rampTop i)) s
  (s.restartTurns.mapCmd q (fun c => { c with begun := true })).startBarrier

/-- START (R401). -/
def execStart (q : QueueId) (s : State) : Res :=
  s.runCmd q.val 0x05 (fun c => resvWords c.desc [2, 3, 4, 5, 6, 7]) (if s.wicketNoJob then [] else [1]) (fun _ s =>
    if s.startCode = cOK then s.startJob q.val else s.completeCmd q.val s.startCode 0 0)

/-! ## The barrier (R361, R362) -/

/-- Every started context is HALTED and none is FAULTED (R399). -/
def State.allHalted (s : State) : Bool := s.startCtxs.all (fun c => s.ctxState (c / 2) (c % 2) == 2)

/-- The job ends when every started context is HALTED; no further symbol is waited for. -/
def State.jobEnd (s : State) : State :=
  if s.job = 2 ∧ s.allHalted then ({ s with coll := { s.coll with barWait := false } } : State).setJob 1 else s

/-- The contexts of the job start (R247, R361, R401). -/
def State.releaseJob (s : State) : State :=
  let s := s.hcq.entries.foldl (fun (s : State) (e : Nat × Nat) =>
    let n := e.1 / 2
    let x := e.1 % 2
    let c := s.ctx n x
    let s := s.setCtx n x { c with ownEpoch := c.epoch }
    (s.setRf (pCOR n) (corOff x 0x08) 47 0 e.2).setCtxState n x 1) s
  let s := s.setJob 2
  let s := (match s.hcq.starting with
    | none => s
    | some q => ({ s with hcq := { s.hcq with starting := none } } : State).completeCmd q cOK 0 0)
  s.armBarrier.jobEnd

/-- A step release adds 1 to the BAR_TALLY that the collective engine of each die names, in the slot of the CFE (R247, R250,
R361). -/
def State.releaseStep (s : State) : State :=
  ((List.range 4).foldl (fun (s : State) (d : Nat) =>
    let r := (s.tookSlot d 301).addTally (144 + d) (s.rf (pCOL d) 0x100 44 32) 1
      { node := s.nodeId, core := 0xFE, ctx := 0, pc := 0, step := s.stepNo }
    if r.1 = cOK then r.2 else r.2.raise (pSYN (144 + d)) 1) s).armBarrier

/-- BARRIER_RELEASE (R361). -/
def execBarrierRelease (s : State) : Res :=
  match s.coll.barDue with
  | [] => .fault .notEnabled
  | start :: rest =>
    let t : State := { s with coll := { s.coll with barDue := rest } }
    happens s.live (if start then t.releaseJob else t.releaseStep)

/-- What a symbol that has been received does on its node: it makes the release of an accepted START or of a step due; one that
comes before the node's START is kept, and one after a BAR_TIMEOUT releases nothing until the next job start (log 61). -/
def State.takeBar (s : State) : State :=
  if s.coll.barLate then s
  else if s.hcq.starting.isSome then s.barCame true
  else if [2, 3, 6].contains s.jobUnder then s.barCame false
  else { s with coll := { s.coll with barEarly := true } }

/-- BAR (R361): the link layer forwards the symbol at reception, and the node's release is due. -/
def execBar (port : PortId) (s : State) : Res :=
  happens (s.live && s.linkState port.val == 2) s.sendBar.takeBar

/-- BAR_TIMEOUT (R362): the window ends without a symbol; the node does not release. -/
def execBarTimeout (s : State) : Res :=
  happens (s.live && s.coll.barWait) (({ s with coll := { s.coll with
    barWait := false
    barLate := true } } : State).raise (pCOL 0) 4)

/-! ## PREEMPT, RESUME, STEP_COMMIT (R283, R380) -/

/-- PREEMPT (R283): completes once what is in flight has ended. -/
def execPreempt (q : QueueId) (s : State) : Res :=
  s.runCmd q.val 0x07 (fun c => resvWords c.desc [2, 3, 4, 5, 6, 7]) [2] (fun _ s =>
    s.mapCmd q.val (fun c => { c with begun := true }))

/-- RESUME (R283). -/
def execResume (q : QueueId) (s : State) : Res :=
  s.runCmd q.val 0x08 (fun c => resvWords c.desc [2, 3, 4, 5, 6, 7]) [3] (fun _ s => s.resumeJob.completeCmd q.val cOK 0 0)

/-- STEP_COMMIT (R380): carried out once the node is ready. -/
def execStepCommit (q : QueueId) (s : State) : Res :=
  s.runCmd q.val 0x09 (fun c => resvWords c.desc [4, 5, 6, 7] ++
      [(2, 0, cCONFLICT, c.desc.w2 != s.reg pCFE 0x1C0), resv c.desc 3 63 3])
    (if s.genBase = 2 then [2] else []) (fun _ s =>
      ({ s with hcq := { s.hcq with commits := s.hcq.commits ++ [q.val] } } : State).mapCmd q.val (fun c => { c with begun := true }))

/-! ## XFER (R402) -/

/-- Addresses at which the memory of a range is judged: its ends and every 8 MiB boundary in it. -/
def judged (a n : Nat) : List Nat :=
  a :: (a + n - 1) :: (List.range (n / 0x800000 + 1)).map (fun i => min ((a / 0x800000 + 1 + i) * 0x800000) (a + n - 1))

/-- Conditions on LOCAL: a device-side target, as program DMA is checked. -/
def State.targetChecks (s : State) (a n : Nat) (write : Bool) : List Check :=
  let len := max n 1
  let codes := (judged a len).map s.placeCode
  let copy := if write then s.copyAt a len else none
  [ (2, 0, cRANGE, !s.oneKind a len || codes.contains cRANGE), (2, 0, cALIGN, a % 64 != 0),
    (2, 0, cLOCKED, write && (s.inTable a len || (match copy with
      | some (r, i) => i != (s.entry r).writeCopy
      | none => false))),
    (2, 0, cSTATE, codes.contains cSTATE || copy.isSome), (2, 0, cDEPENDENCY, codes.contains cDEPENDENCY) ]

/-- Port and QPN of a transfer. -/
def cmdQp (d : Desc) : Nat × Nat := (fld d.w2 50 49, fld d.w5 23 0)

/-- Conditions of XFER. -/
def State.xferChecks (s : State) (c : Cmd) : List Check :=
  let d := c.desc
  let q := cmdQp d
  resvWords d [6, 7] ++ s.targetChecks (fld d.w2 47 0) (fld d.w4 63 32) (!bitAt d.w2 48) ++
    [ (2, 51, cSTATE, bitAt d.w2 51 && s.fixedRun && s.job == 2), resv d 2 63 52,
      (4, 32, cALIGN, fld d.w4 63 32 % 64 != 0),
      (5, 0, cDEPENDENCY, !s.qpUsable q.1 q.2), resv d 5 63 37 ]

/-- Frames that a message of `n` bytes takes on a port (R388). -/
def State.frames (s : State) (port n : Nat) : Nat := max 1 (ceilDiv n (128 * 2 ^ (if s.enabled (pRCE port) then s.rf (pRCE port) 0x100 2 0 else 5)))

/-- A message of the device goes out on a QP: an RDMA WRITE. -/
def State.postWrite (s : State) (q port qpn rkey addr : Nat) (data : List Byte) : State :=
  ((s.emit (.rdmaWriteOut port qpn rkey addr data)).transmit port (s.frames port data.length)).mapQp port qpn (fun k =>
    { k with posts := k.posts ++ [{ queue := q, bytes := data.length }] })

/-- An accepted XFER moves its bytes in one message. -/
def State.startXfer (s : State) (q : Nat) (d : Desc) : State :=
  let a := fld d.w2 47 0
  let n := fld d.w4 63 32
  let k := cmdQp d
  let remote := d.w3.toNat
  let rkey := fld d.w4 31 0
  if bitAt d.w2 48 then
    let r := s.readClean a n 0
    let len := r.1
    let s := r.2.mapCmd q (fun c => { c with
      begun := true
      total := len
      stop := if len < n then some (0x40, 0x40) else none })
    if len = 0 then s else s.postWrite q k.1 k.2 rkey remote (s.bytes a len)
  else
    let s := s.mapCmd q (fun c => { c with
      begun := true
      total := n })
    if n = 0 then s
    else
      ((s.emit (.rdmaReadOut k.1 k.2 rkey remote n)).transmit k.1 1).mapQp k.1 k.2 (fun p =>
        { p with posts := p.posts ++ [{ queue := q, bytes := n, dest := some a }] })

/-- A QP has room for one more RDMA READ (R388). -/
def State.readRoom (s : State) (d : Desc) : Bool :=
  bitAt d.w2 48 || (match s.findQp (cmdQp d).1 (cmdQp d).2 with
    | none => true
    | some k => decide ((k.posts.filter (fun m => m.dest.isSome)).length < 16))

/-- Memory that an XFER to the host reads. -/
def xferSpans (d : Desc) : List (Nat × Nat) := if bitAt d.w2 48 then [(fld d.w2 47 0, fld d.w4 63 32)] else []

/-- XFER (R402). -/
def execXfer (q : QueueId) (s : State) : Res :=
  if (match (s.queue q.val).cur with
    | none => true
    | some c => s.readRoom c.desc) && s.cmdReads q.val xferSpans then
    s.runCmd q.val 0x0A s.xferChecks [1, 2, 3, 6] (fun c s => s.startXfer q.val c.desc)
  else .fault .notEnabled

/-- The tally of a finished XFER is signalled (R247, R402): status and class, and the state. -/
def State.xferSignal (s : State) (d : Desc) : Nat × Nat × State :=
  if !bitAt d.w2 51 then (cOK, 0, s)
  else
    let u := 144 + fld d.w2 50 49
    let r := s.addTally u (fld d.w5 36 24) 1 { node := s.nodeId, core := 0xFE, ctx := 0, pc := 0, step := s.stepNo }
    if r.1 = cOK then (cOK, 0, r.2) else (r.1, 0x30, r.2.raise (pSYN u) 1)

/-- XFER_COMPLETE (R402). -/
def execXferComplete (q : QueueId) (s : State) : Res :=
  match (s.queue q.val).cur with
  | none => .fault .notEnabled
  | some c =>
    happens (s.live && c.begun && fld c.desc.w0 7 0 == 0x0A && c.moved == c.total)
      (match c.stop with
      | some e => s.completeCmd q.val e.1 e.2 0
      | none =>
        let r := s.xferSignal c.desc
        r.2.2.completeCmd q.val r.1 r.2.1 0)

/-! ## SNAPSHOT (R226 to R229, R403) -/

/-- Region ids of a SNAPSHOT. -/
def snapRegions (d : Desc) : List Nat := rangeFrom (fld d.w2 9 0) (fld d.w2 25 16)

/-- Conditions of SNAPSHOT. -/
def State.snapChecks (s : State) (c : Cmd) : List Check :=
  let d := c.desc
  let q := cmdQp d
  let past := decide (s.regionCount < fld d.w2 9 0 + fld d.w2 25 16)
  let rs := if past then [] else snapRegions d
  let sum := (rs.map (fun r => 64 + (s.entry r).len)).sum
  resvWords d [6, 7] ++
    [ (2, 0, cRANGE, past), (2, 0, cCONFLICT, rs.any (fun r => (s.entry r).pinned && (s.entry r).pinVersion != (s.entry r).version)),
      (2, 0, cDEPENDENCY, !s.enabled (pTXN 0)), resv d 2 15 10, resv d 2 48 26, resv d 2 63 51,
      (4, 32, cRANGE, decide (fld d.w4 63 32 < sum)),
      (5, 0, cDEPENDENCY, !s.qpUsable q.1 q.2), resv d 5 63 24 ]

/-- The step whose commit produced the pinned version: a free value where the host wrote it. -/
def State.pinnedStep (s : State) (r : Nat) : Nat × State :=
  match Tab.find s.txn.pinStep r with
  | some n => (n - 1, s)
  | none => (Config.freeNat s.draw.1, s.draw.2)

/-- Header and payload of a region, up to its first poisoned line, and whether there is one. -/
def State.streamRegion (s : State) (r : Nat) : List Byte × Bool × State :=
  let e := s.entry r
  let a := e.copy e.pin
  let x := s.readClean a e.len 0
  let len := x.1
  let s := x.2
  let p := s.pinnedStep r
  let head := natLe 2 3 ++ natLe 2 0 ++ natLe 4 r ++ natLe 8 p.1 ++ natLe 8 e.pinVersion ++ natLe 8 e.len ++ sha3 (s.bytes a e.len)
  (head ++ s.bytes a len, decide (len < e.len), p.2)

/-- The stream of regions, up to the first poisoned line. -/
def State.stream (s : State) (rs : List Nat) : List Byte × Bool × State :=
  rs.foldl (fun (acc : List Byte × Bool × State) (r : Nat) =>
    if acc.2.1 then acc
    else
      let x := acc.2.2.streamRegion r
      (acc.1 ++ x.1, x.2.1, x.2.2)) ([], false, s)

/-- A SNAPSHOT takes its pins, or shares them, and streams. -/
def State.startSnap (s : State) (q : Nat) (d : Desc) : State :=
  let rs := snapRegions d
  let s := rs.foldl (fun (s : State) (r : Nat) =>
    let s := if (s.entry r).pinned then s else s.pinRegion r
    { s with hcq := { s.hcq with pins := s.hcq.pins ++ [(r, q)] } }) s
  let x := s.stream rs
  let s := x.2.2.mapCmd q (fun c => { c with
    begun := true
    pins := rs
    total := x.1.length
    stop := if x.2.1 then some (0x40, 0x40) else none })
  if x.1 = [] then s else s.postWrite q (cmdQp d).1 (cmdQp d).2 (fld d.w4 31 0) d.w3.toNat x.1

/-- Memory that a SNAPSHOT reads: the entries and the copies that its regions pin. -/
def State.snapSpans (s : State) (d : Desc) : List (Nat × Nat) :=
  if s.regionCount < fld d.w2 9 0 + fld d.w2 25 16 then []
  else (snapRegions d).flatMap (fun r =>
    let e := s.entry r
    [(s.entryAddr r, 64), (e.copy (if e.pinned then e.pin else e.active), e.len)])

/-- SNAPSHOT (R403). -/
def execSnapshot (q : QueueId) (s : State) : Res :=
  if s.cmdReads q.val s.snapSpans then
    s.runCmd q.val 0x0B s.snapChecks [2, 3, 6] (fun c s => s.startSnap q.val c.desc)
  else .fault .notEnabled

/-- TXOs that waited for a pin are served (R228, R268). -/
def State.retryTxo (s : State) : State :=
  allCtxs.foldl (fun (s : State) (c : Nat) =>
    let n := c / 2
    let x := c % 2
    let k := s.ctx n x
    if k.txWait ≠ 0x61 then s
    else
      match k.fly.find? (fun i => i.op == 0x61), s.openOf n x with
      | some i, some t =>
        if (s.entry (fld i.desc.w3 9 0)).waits then s
        else (s.setCtx n x { k with txWait := 0 }).serveTxo n x i t
      | _, _ => s) s

/-- The pins that a command took are released where no other command shares them (R227). -/
def State.dropPins (s : State) (q : Nat) : State :=
  let mine := s.hcq.pins.filter (fun p => p.2 == q)
  let rest := s.hcq.pins.filter (fun p => p.2 != q)
  let s := { s with hcq := { s.hcq with pins := rest } }
  let s := mine.foldl (fun (s : State) (p : Nat × Nat) => if rest.any (fun e => e.1 == p.1) then s else s.unpinRegion p.1) s
  if mine = [] then s else s.retryTxo

/-- PIN_RELEASE (R226, R403). -/
def execPinRelease (q : QueueId) (s : State) : Res :=
  match (s.queue q.val).cur with
  | none => .fault .notEnabled
  | some c =>
    let e := c.stop.getD (cOK, 0)
    happens (s.live && c.begun && fld c.desc.w0 7 0 == 0x0B && c.moved == c.total)
      ((s.dropPins q.val).completeCmd q.val e.1 e.2 c.total)

/-! ## Records and QPs (R388, R397) -/

/-- RECORD_WRITE_ACK (R397). -/
def execRecordWriteAck (dseq : Nat) (s : State) : Res :=
  match s.hcq.unacked.find? (fun r => r.dseq == dseq) with
  | none => .fault .notEnabled
  | some r =>
    let t : State := { s with hcq := { s.hcq with unacked := s.hcq.unacked.filter (fun r => r.dseq != dseq) } }
    happens s.live (t.mapQp r.port r.qpn (fun k => { k with tries := 0 })).setEvtSeq

/-- A command that moves bytes ends with an error of its QP or its remote side; RESULT of a SNAPSHOT holds the bytes streamed
(R402, R403). -/
def State.endMove (s : State) (q code : Nat) : State :=
  let result : Nat := (match (s.queue q).cur with
    | none => 0
    | some c => if fld c.desc.w0 7 0 = 0x0B then c.total else 0)
  (s.dropPins q).completeCmd q code 0 result

/-- A queue's command has a message outstanding on a QP. -/
def Qp.uses (k : Qp) (q : Nat) : Bool := k.posts.any (fun m => m.queue == q)

/-- A QP enters the error state: its commands end with DEPENDENCY, and the records written through it that nobody has
acknowledged are held again (R396, R397, R402). -/
def State.breakQp (s : State) (port qpn : Nat) : State :=
  match s.findQp port qpn with
  | none => s
  | some k =>
    let s := s.mapQp port qpn (fun k => { k with
      err := true
      posts := [] })
    let lost := s.hcq.unacked.filter (fun r => r.port == port && r.qpn == qpn)
    let s := { s with hcq := { s.hcq with
      unacked := s.hcq.unacked.filter (fun r => !(r.port == port && r.qpn == qpn))
      held := lost.foldl insRec s.hcq.held } }
    (List.range 16).foldl (fun (s : State) (q : Nat) => if k.uses q then s.endMove q cDEPENDENCY else s) s

end Sys2Proof.Machine
end

