-- ==== Sys2Proof/Machine/Bringup.lean ====
section
/-! DEFINITION. Resets, the boot of the MSC, the stages of bring-up, crossing alignment, harvest selection and failures
(R27, R28, R411 to R427, R481 to R483, R491). -/

namespace Sys2Proof.Machine

/-! ## The MSC in ROM (R481 to R483, R491) -/

/-- A kind that is in TRIAL reverts to its previous slot and raises REVERTED. -/
def State.revertKind (s : State) (kind : Nat) : State :=
  let k := s.slotsOf kind
  if !k.trial then s
  else (s.setSlotsOf kind { k with
    active := 1 - k.active
    trial := false }).raise pSEC 3

/-- Every kind in TRIAL reverts but for one that is being activated (0: none). -/
def State.revertAll (s : State) (but : Nat) : State :=
  [1, 2, 3].foldl (fun (s : State) (k : Nat) => if k = but then s else s.revertKind k) s

/-- The first slot of a kind to pass R480, the active one first. -/
def State.passing (s : State) (kind : Nat) : Option Nat :=
  let a := (s.slotsOf kind).active
  if s.verifyCode kind a = cOK then some a else if s.verifyCode kind (1 - a) = cOK then some (1 - a) else none

/-- A kind runs from a slot; one that is not the active slot becomes it, and REVERTED is raised. -/
def State.selectSlot (s : State) (kind slot : Nat) : State :=
  let k := s.slotsOf kind
  if k.active = slot then s
  else (s.setSlotsOf kind { k with
    active := slot
    trial := false }).raise pSEC 3

/-- The identity that the ROM derives for the MSC image of a slot (R483). -/
def State.deriveIdentity (s : State) (slot : Nat) : State :=
  let m := s.manifest 1 slot
  let dev := Config.mldsaKeyGen (sha3 (deviceLabel ++ Config.uds))
  let cdi := sha3 (Config.uds ++ m.digest ++ natLe 1 m.svn ++ natLe 1 m.keyIndex)
  let key := Config.mldsaKeyGen (sha3 (aliasLabel ++ cdi))
  let tbs := Config.aliasTbs dev.1 key.1 m.digest m.svn m.version
  { s with sec := { s.sec with
    deviceId := dev.1
    aliasPub := key.1
    aliasPriv := key.2
    aliasCert := Config.aliasDer tbs (Config.mldsaSign dev.2 [] tbs)
    udsLocked := true
    mscRun := s.runOf 1 slot } }

/-- The MSC firmware of a slot runs. -/
def State.bootMsc (s : State) (slot : Nat) : State :=
  let s := s.deriveIdentity slot
  { s with boot := { s.boot with
    mscUp := true
    recovery := false } }

/-- The ROM waits for a recovery image (R482). -/
def State.enterRecovery (s : State) : State :=
  { s with boot := { s.boot with
    mscUp := false
    recovery := true
    recv := [] } }

/-- The ROM boots the first MSC slot that passes, or enters recovery and asserts ALERT_N (R481). -/
def State.romBoot (s : State) : State :=
  match s.passing 1 with
  | some slot => (s.selectSlot 1 slot).bootMsc slot
  | none => s.enterRecovery.alert

/-- The MSC restarts its firmware from ROM while the package runs on (R457, R490): requests in progress are lost, and the
kinds in TRIAL revert but for the one that is being activated. -/
def State.restartMsc (s : State) (activated : Nat) : State :=
  let s := { s with sec := { s.sec with busy := none } }
  ((s.setRf pSEC 0x118 1 0 (if s.rf pSEC 0x118 1 0 = 1 then 0 else s.rf pSEC 0x118 1 0)).revertAll activated).romBoot

/-! ## Resets (R411, R426, R427) -/

/-- Core slots that the fuses or the spare record mark (R420). -/
def Boot.unusable (b : Boot) : List Nat := b.spareSlots.foldl insSet b.fuseBad

/-- A down interval is open at a reset: a fatal freeze, or a power stop of cause 3 or 4 (R463). -/
def State.goesDown (s : State) : Bool :=
  s.boot.down || s.frozen == 2 || s.pwr.stopped == some 3 || s.pwr.stopped == some 4

/-- Time that a bring-up which has not reached S3 has taken: that of its last stage, and a time that nothing tells after it
(R463, log 63). -/
def State.bringupMs (s : State) : Nat × State :=
  if s.board.pwrgood ∧ s.stage < 3 ∧ s.boot.strapped then
    let d := s.draw
    (max (s.rf pCFE 0x208 15 0) (s.rf pCFE 0x208 31 16) + Config.freeNat d.1, d.2)
  else (0, s)

/-- The supply conditions that outlast a reset other than power-on (R446). -/
def State.keptPower (s : State) : PwrSt :=
  { stopped := s.pwr.stopped
    present := s.pwr.present
    bleed := s.pwr.bleed }

/-- A power-on reset (CAUSE 0) or RESET_N (CAUSE 1): everything but flash, fuses and the spare record starts anew, the MSC in
ROM at S0. -/
def State.coldReset (s : State) (cause : Nat) : State :=
  let power := cause == 0
  let m := s.bringupMs
  let t : State := { State.reset with
    board := { pwrgood := true, vstby := s.board.vstby, thermtrip := !power && s.board.thermtrip }
    boot := { fuseBad := s.boot.fuseBad, spareSlots := s.boot.spareSlots, sparePchs := s.boot.sparePchs,
              harvest := s.boot.unusable, availMs := s.boot.availMs + m.1, downMs := s.boot.downMs + (if s.boot.down then m.1 else 0),
              down := s.goesDown, fatals := s.boot.fatals, retryMs := s.boot.retryMs,
              slotFaults := if power then [] else s.boot.slotFaults }
    mem := s.mem
    pwr := if power then {} else s.keptPower
    shut := if power then {} else { seq := s.shut.seq, sessions := s.shut.sessions, badCodes := s.shut.badCodes }
    sec := { s.sec with
      busy := none
      seqSwitch := false }
    free := m.2.free
    out := s.out
    pending := s.pending }
  (((t.undefine 0 regBase).setRf pCFE 0x200 26 24 cause).revertAll 0).romBoot

/-- POWER_GOOD (R411): the standby island has its supply. -/
def execPowerGood (s : State) : Res := occurs (!s.board.pwrgood && s.board.vstby) (s.coldReset 0)

/-- RESET_N (R411). -/
def execResetN (s : State) : Res := occurs s.board.pwrgood (s.coldReset 1)

/-- Contexts after a reset of the package: idle, their epochs advanced. -/
def State.freshCores (s : State) : Tab Core :=
  (List.range 144).map (fun n =>
    let k := s.core n
    (n, { c0 := { epoch := (k.c0.epoch + 1) % 65536, nseq := k.c0.nseq }
          c1 := { epoch := (k.c1.epoch + 1) % 65536, nseq := k.c1.nseq } }))

/-- HBM controllers after a warm reset: what a failed training has lost stays lost until it is written (R316, R411). -/
def State.warmStacks (s : State) : Tab Stack :=
  s.hbm.stk.map (fun e =>
    (e.1, { stale := e.2.fenced.foldl insSet e.2.stale
            fresh := if e.2.fenced = [] then e.2.fresh else []
            lost := e.2.lost }))

/-- Every sector leaves the write-combining buffers: the stacks go into self-refresh (R302). -/
def State.flushWcb (s : State) : State :=
  s.hbm.stk.foldl (fun (s : State) (e : Nat × Stack) =>
    e.2.wcb.foldl (fun (s : State) (w : Sector) => s.sectorLeaves e.1 w .clean) s) s

/-- What a warm reset does to memory: HBM is kept, with every committed line, core stores and slices are undefined, and every
transaction has aborted (R411, R423, R426, R453). -/
def State.warmMemory (s : State) : State :=
  (s.txn.txns.foldl (fun (s : State) (t : Txn) => t.regions.foldl (fun (s : State) (r : Nat) => s.closeRegion r) s)
    s.flushWcb).undefine scratchBase regBase

/-- A warm reset aborts a transaction that has not ended: the retry interval of R463 begins. -/
def State.warmRetry (s : State) : Nat :=
  if s.txn.txns.any (fun t => decide (t.state ≤ 4)) then max 1 s.boot.retryMs else s.boot.retryMs

/-- A warm reset, by the host (CAUSE 2) or the MSC (CAUSE 3): the package is back at S1, the MSC runs on. -/
def State.warmReset (s : State) (cause : Nat) : State :=
  let b := s.bringupMs
  let m := b.2.warmMemory
  let t : State := { State.reset with
    board := { s.board with shutter := false }
    boot := { s.boot with
      stage := 1
      filled := []
      ticked := []
      aligned := []
      harvest := s.boot.unusable
      availMs := s.boot.availMs + b.1
      downMs := s.boot.downMs + (if s.boot.down then b.1 else 0)
      down := s.goesDown || cause == 3
      retryMs := s.warmRetry }
    mem := m.mem
    cores := s.freshCores
    hbm := { stk := s.warmStacks }
    link := { nextTag := s.link.nextTag }
    pwr := s.keptPower
    shut := { s.shut with trigUsed := false }
    sec := { s.sec with seqSwitch := false }
    free := m.free
    out := s.out
    pending := s.pending }
  let t := t.setReg (pRTR 0) 0x100 (s.reg (pRTR 0) 0x100)
  let t := (t.setRf pCFE 0x200 26 24 cause).setRf pCFE 0x200 17 16 (s.rf pCFE 0x200 17 16)
  let t := if t.sec.busy.isSome then t.setReg pSEC 0x118 (s.reg pSEC 0x118) else t
  let t := t.revertAll 0
  { t with sec := { t.sec with seqRun := t.runOf 2 t.sec.seqr.active } }

/-- A write of BOOT_CTL with WARM = 1. -/
def State.warmWrite (s : State) (confirm : Nat) (go : Bool) : Nat × State :=
  if go || confirm != 0xA5 then (cRANGE, s) else (cOK, s.warmReset 2)

/-- WARM (R426). -/
def execWarm (confirm : Byte) (go : Bool) (src : Src) (s : State) : Res :=
  s.serveRow pCFE 0x210 src (s.warmWrite confirm.toNat go)

/-- The boot mode that the straps select (R412). -/
def State.bootMode (s : State) : Nat := s.rf pCFE 0x200 17 16

/-- CFE.BOOT.FAIL. -/
def State.bootFail (s : State) : Nat := s.rf pCFE 0x200 35 32

/-- A write of BOOT_CTL with GO = 1 and WARM = 0. -/
def State.goWrite (s : State) : Nat × State :=
  if s.bootMode ≠ 1 ∨ s.stage ≠ 2 ∨ s.job ≠ 0 then (cSTATE, s) else (cOK, s.setRf pCFE 0x200 8 8 1)

/-- BOOT_GO (R416). -/
def execBootGo (src : Src) (s : State) : Res := s.serveRow pCFE 0x210 src s.goWrite

/-- State registers of a core's pages that its reset returns to their reset values; its counters are kept (R411), and its
objects keep their values (R247). -/
def State.coreRegs (s : State) (n : Nat) : State :=
  let s := (List.range 4).foldl (fun (s : State) (a : Nat) =>
    [0x100, 0x128, 0x180, 0x188, 0x190].foldl (fun (s : State) (o : Nat) => s.setReg (pMXA n a) o 0) s) s
  let s := s.setReg (pQNT n) 0x110 0
  let s := [0x100, 0x108, 0x110, 0x118, 0x120, 0x130].foldl (fun (s : State) (o : Nat) => s.setReg (pVEC n) o 0) s
  let s := s.setReg (pSYN n) 0x100 0
  { s with sync := { s.sync with views := Tab.del s.sync.views n } }

/-- A per-core reset: both contexts and the arrays are reset, no line is resident, the core store is undefined. -/
def State.coreResetNow (s : State) (n : Nat) : State :=
  let s := (s.resetCtx n 0).resetCtx n 1
  let s := s.coreRegs n
  let k := s.core n
  let s := s.setCore n { k with
    resident := []
    tags := [] }
  s.undefine (storeAddr n 0) (storeAddr n 0 + storeSize)

/-- A core is in service at this stage: a core of D0 C0 in wicket service, any at full service. -/
def State.coreServed (s : State) (n : Nat) : Bool := decide (3 ≤ s.stage) || (decide (2 ≤ s.stage) && decide (n < s.clusterCores 0 0))

/-- A write of CFE.CORE_RESET with GO = 1; a START that waits for its barrier counts as RUNNING. -/
def State.coreResetWrite (s : State) (n : Nat) : Nat × State :=
  if 143 < n then (cRANGE, s)
  else if s.jobBusy || s.job == 5 || s.hcq.starting.isSome then (cSTATE, s)
  else if !s.coreServed n then (cDEPENDENCY, s)
  else (cOK, s.coreResetNow n)

/-- CORE_RESET (R427). -/
def execCoreReset (core : Byte) (src : Src) (s : State) : Res := s.serveRow pCFE 0x218 src (s.coreResetWrite core.toNat)

/-! ## Straps (R412) -/

/-- STRAP_SAMPLE (R412): mode 2 keeps the ROM in recovery, mode 3 keeps the package at S0 with ALERT_N asserted. -/
def execStrapSample (x y z : Fin 32) (profile : Fin 8) (boot : Fin 4) (s : State) : Res :=
  let v : Nat := z.val + 32 * y.val + 1024 * x.val + 65536 * profile.val
  let t := (s.setReg (pRTR 0) 0x100 (BitVec.ofNat 64 v)).setRf pCFE 0x200 17 16 boot.val
  let t := { t with boot := { t.boot with strapped := true } }
  let t := if boot.val = 2 then t.enterRecovery
    else if boot.val = 3 then ({ t with boot := { t.boot with
        mscUp := false
        recovery := false } } : State).alert
    else t
  occurs (s.board.pwrgood && s.stage == 0 && !s.boot.strapped) t

/-! ## Failures (R424) -/

/-- Bring-up stops at a stage: cause, die and unit are recorded, BRINGUP_FAIL is raised, ALERT_N is asserted. -/
def State.failBoot (s : State) (stage fail die unit : Nat) : State :=
  let s := { s with boot := { s.boot with stage := stage } }
  let s := (s.setRf pCFE 0x200 1 0 stage).setRf pCFE 0x200 35 32 fail
  let s := (s.setRf pCFE 0x200 37 36 die).setRf pCFE 0x200 47 40 unit
  (s.raise (pRAS 0) 2).alert

/-! ## S1 (R413, R414, R481) -/

/-- A number of the boot configuration in a slot. -/
def State.cfgNat (s : State) (slot off n : Nat) : Nat := s.flashNat 3 slot (imageOff + off) n

/-- The boot configuration of a slot holds a reserved value, or a non-zero byte that bring-up does not read. -/
def State.badCfg (s : State) (slot : Nat) : Bool :=
  s.cfgNat slot 0 2 != 3 || decide (1 < s.cfgNat slot 2 1 ∨ 1 < s.cfgNat slot 3 1) || s.cfgNat slot 0x0E 2 != 0 ||
    s.cfgNat slot 0x14 12 != 0 || s.cfgNat slot 0x130 0xD0 != 0

/-- The boot configuration of a slot. -/
def State.readCfg (s : State) (slot : Nat) : BootCfg :=
  { medium := s.cfgNat slot 2 1
    reserve := s.cfgNat slot 3 1 == 1
    key := s.cfgNat slot 4 4
    mac := s.cfgNat slot 8 6
    ipv4 := s.cfgNat slot 0x10 4
    ipv6 := s.cfgNat slot 0x20 16
    allow := (List.range 32).map (fun i => s.cfgNat slot (0x30 + 8 * i) 8) }

/-- The IPv6 link-local address that RFC 4291 forms from a MAC address. -/
def linkLocal (mac : Nat) : Nat := 0xFE80 * 2 ^ 112 + (mac / 2 ^ 24 ^^^ 0x020000) * 2 ^ 40 + 0xFFFE * 2 ^ 24 + mac % 2 ^ 24

/-- No boot configuration can be used: FAIL CONFIG; port 0 has the link-local address of the fused MAC address and serves
ATTEST and staging (R414, log 62). -/
def State.failConfig (s : State) : State :=
  let mac := Config.fuseMac.toNat
  ({ s with boot := { s.boot with cfg := { mac := mac, ipv6 := linkLocal mac, open_ := true } } } : State).failBoot 1 1 0 1

/-- The MSC firmware verifies the boot configuration and the sequencer firmware. -/
def State.firmwareCheck (s : State) : State :=
  match s.passing 3 with
  | none => s.failConfig
  | some c =>
    let s := s.selectSlot 3 c
    if s.badCfg c then s.failConfig
    else
      let cfg := s.readCfg c
      let s := { s with
        boot := { s.boot with cfg := cfg }
        sec := { s.sec with cfgRun := s.runOf 3 c } }
      (match s.passing 2 with
      | none => s.failBoot 1 1 0 2
      | some q =>
        let s := s.selectSlot 2 q
        { s with sec := { s.sec with seqRun := s.runOf 2 q } })

/-- A stage is reached: BOOT.STAGE and BOOT_TIME. -/
def State.setStage (s : State) (n ms : Nat) : State :=
  let s := { s with boot := { s.boot with stage := n } }
  (s.setRf pCFE 0x200 1 0 n).setRf pCFE 0x208 (16 * n - 1) (16 * n - 16) ms

/-- The bounds of R413 hold: they are given for boot mode 0; an MSC that was recovered comes late. -/
def State.inTime (s : State) (ms bound : Nat) : Bool := s.bootMode != 0 || s.sec.msc.trial || decide (ms ≤ bound)

/-- STAGE_S1 (R413). -/
def execStageS1 (ms : Nat) (s : State) : Res :=
  occurs (s.board.pwrgood && s.stage == 0 && s.boot.strapped && s.boot.mscUp && decide (ms < 65536) && s.inTime ms 150)
    (s.setStage 1 ms).firmwareCheck

/-! ## Crossings (R25, R27 to R29, R415) -/

/-- Every crossing of the package: 13 * die + XING. -/
def allXings : List Nat := (List.range 4).flatMap (fun d => (List.range (if d = 0 then 13 else 12)).map (fun x => 13 * d + x))

/-- The host crossing of port 0 and the MSC crossing: the first group. -/
def firstXings : List Nat := [9, 12]

/-- An island has a ramp in progress or waiting. -/
def State.unsettled (s : State) (i : Nat) : Bool := (s.island i).target.isSome || s.pwr.tokens.contains i

/-- The third group comes once every island has ramped up (R415 step 1); boot mode 1 waits for GO before it. -/
def State.mayFinish (s : State) : Bool :=
  s.stage == 2 && s.bootFail == 0 && (s.bootMode != 1 || s.rf pCFE 0x200 8 8 == 1) && !(List.range 36).any s.unsettled

/-- The torus port of a crossing trains and waits for its alignment (R329 step 7). -/
def State.portAligns (s : State) (x : Nat) : Bool :=
  (List.range 12).any (fun p => portXing p == x && s.linkState p == 1 && (s.port p).step == 7)

/-- A crossing takes part in an alignment now. -/
def State.aligning (s : State) (x : Nat) : Bool :=
  allXings.contains x && !s.boot.aligned.contains x && s.live &&
    (if s.stage = 1 then s.bootFail == 0 && firstXings.contains x else s.mayFinish || s.portAligns x)

/-- The group that the MSC's next start tick serves. -/
def State.tickGroup (s : State) : List Nat :=
  if s.stage = 1 then firstXings else if s.mayFinish then allXings.filter (fun x => !s.boot.aligned.contains x) else []

/-- CROSSING_FILLED (R27 steps 2 and 3): the crossing empties its buffers, its writing sides insert their idle tokens. -/
def execCrossingFilled (die : DieId) (xing : XingId) (s : State) : Res :=
  let x := 13 * die.val + xing.val
  let t := (s.emptyXing x).fillXing x
  occurs (s.aligning x && !s.boot.filled.contains x)
    { t with boot := { t.boot with filled := insSet t.boot.filled x } }

/-- Crossings receive the start tick. -/
def State.tick (s : State) (xs : List Nat) : State := { s with boot := { s.boot with ticked := xs.foldl insSet s.boot.ticked } }

/-- START_TICK (R27 step 5, R29): from the MSC once every crossing of the group has raised FILLED, or for one torus
port. -/
def execStartTick (port : Option PortId) (s : State) : Res :=
  match port with
  | none =>
    let g := s.tickGroup
    occurs (s.live && g.all (fun x => s.boot.filled.contains x) && g.any (fun x => !s.boot.ticked.contains x)) (s.tick g)
  | some p =>
    let x := portXing p.val
    occurs (s.aligning x && s.portAligns x && s.boot.filled.contains x && !s.boot.ticked.contains x) (s.tick [x])

/-- DATAPATH_RELEASE (R27 step 7). -/
def execDatapathRelease (die : DieId) (xing : XingId) (s : State) : Res :=
  let x := 13 * die.val + xing.val
  occurs (s.live && s.boot.ticked.contains x && !s.boot.aligned.contains x)
    { s with boot := { s.boot with aligned := insSet s.boot.aligned x } }

/-- CROSSING_TIMEOUT (R28, R424): the package is left at S1. -/
def execCrossingTimeout (die : DieId) (xing : XingId) (s : State) : Res :=
  let x := 13 * die.val + xing.val
  let t := s.setReg (pRAS 0) 0x020 (BitVec.ofNat 64 (65536 + xing.val * 4096 + die.val * 256))
  occurs (decide (s.stage < 3) && s.aligning x && !s.boot.filled.contains x) (t.failBoot 1 2 die.val 0)

/-! ## Harvest and sparing (R420 to R423) -/

/-- A die can be selected. -/
def State.selectable (s : State) (die : Nat) : Bool :=
  let n := (List.range 8).map (fun c => (s.usable die c).length)
  n.all (fun k => decide (4 ≤ k)) && decide (4 ≤ (n.filter (fun k => k == 5)).length)

/-- Pseudo-channels of the spare record are retired from the start; without a reserve that fails the stack of the
lowest. -/
def State.reapplyRetired (s : State) : State :=
  match s.boot.sparePchs with
  | [] => s
  | c :: _ =>
    if !s.boot.cfg.reserve then s.failBoot 2 4 (c / 160) (c / 32)
    else s.boot.sparePchs.foldl (fun (s : State) (c : Nat) => s.setRf (pMEM (c / 32)) 0x158 (c % 32) (c % 32) 1) s

/-! ## S2 and S3 (R413, R415, R417, R443) -/

/-- Envelope of an HBM and I/O island, in 10 mA: a quarter of the 42.5 A that the four draw (R433). -/
def ioDemand : Nat := 1062

/-- Every island ramps from 0 A to what it draws without work (R415 step 1, R443). -/
def State.rampIslands (s : State) : State :=
  let s := (List.range 32).foldl (fun (s : State) (i : Nat) => s.requestRamp i (s.floorDemand i)) s
  (rangeFrom 32 4).foldl (fun (s : State) (i : Nat) => s.requestRamp i ioDemand) s

/-- Wicket service begins: C0 of D0 at 0.65 V; the other islands, the stacks and the torus ports come up. -/
def State.enterS2 (s : State) (ms : Nat) : State :=
  let s := ((s.setStage 2 ms).setVid 0 10).rampIslands
  ((List.range 12).foldl (fun (s : State) (p : Nat) => s.beginTraining p) s).reapplyRetired

/-- No power stop keeps the islands off (R446). -/
def State.powered (s : State) : Bool := s.board.pwrgood && s.pwr.stopped != some 4 && s.pwr.stopped != some 5

/-- STAGE_S2 (R413): bound 550 ms, 400 ms after a warm reset. `noVolt` says that C0 of D0 did not reach its voltage, and
bring-up stays at S1 with FAIL IVR (R424). -/
def execStageS2 (ms : Nat) (noVolt : Bool) (s : State) : Res :=
  let bound := if 2 ≤ s.rf pCFE 0x200 26 24 then 400 else 550
  if noVolt then occurs (s.powered && s.stage == 1 && s.bootFail == 0) (s.failBoot 1 6 0 0)
  else occurs (s.powered && s.stage == 1 && s.bootFail == 0 && firstXings.all (fun x => s.boot.aligned.contains x) &&
      decide (s.rf pCFE 0x208 15 0 ≤ ms ∧ ms < 65536) && s.inTime ms bound)
    (if s.selectable 0 then s.enterS2 ms else s.failBoot 1 5 0 0)

/-- Bring-up has not come to the third group of crossings yet. -/
def State.training (s : State) : Bool := s.stage == 2 && s.bootFail == 0 && !s.boot.filled.any (fun x => x % 13 < 5 || 9 < x % 13 && x != 12)

/-- UCIE_TRAIN_TIMEOUT (R424). -/
def execUcieTrainTimeout (link : UcieId) (s : State) : Res :=
  occurs s.training (s.failBoot 2 3 (if link.val = 1 then 2 else if link.val = 3 then 1 else 0) link.val)

/-- HBM_TRAIN_TIMEOUT (R424). -/
def execHbmTrainTimeout (stack : StackId) (s : State) : Res := occurs s.training (s.failBoot 2 4 (stack.val / 5) stack.val)

/-- The die that fails its harvest selection. -/
def State.badDie (s : State) : Option Nat := [1, 2, 3].find? (fun d => !s.selectable d)

/-- Full service begins; a down interval ends (R463). -/
def State.enterS3 (s : State) (ms : Nat) : State :=
  let s := (s.setStage 3 ms).setVid 0 30
  { s with boot := { s.boot with
    availMs := s.boot.availMs + ms
    downMs := s.boot.downMs + (if s.boot.down then ms else 0)
    down := false } }

/-- An island does not reach its voltage: one that ramps at step 1 of R415 leaves the package at S2, C0 of D0 at step 6 at S1
(R424). -/
def State.failIvr (s : State) (i : Nat) : Res :=
  let clu := decide (i < 32)
  occurs (s.powered && s.stage == 2 && s.bootFail == 0 && (if i = 0 then s.mayFinish else s.unsettled i))
    (s.failBoot (if i = 0 then 1 else 2) 6 (if clu then i / 8 else i - 32) (if clu then i % 8 else 0))

/-- STAGE_S3 (R413, R415): bound 5 s, 4.5 s after a warm reset. `noVolt` names an island that did not reach its voltage. -/
def execStageS3 (ms : Nat) (noVolt : Option (Fin 36)) (s : State) : Res :=
  let bound := if 2 ≤ s.rf pCFE 0x200 26 24 then 4500 else 5000
  match noVolt, s.badDie with
  | some i, _ => s.failIvr i.val
  | none, some d => occurs (s.powered && s.training) (s.failBoot 2 5 d 0)
  | none, none =>
    occurs (s.powered && s.mayFinish && allXings.all (fun x => s.boot.aligned.contains x) &&
        decide (s.rf pCFE 0x208 31 16 ≤ ms ∧ ms < 65536) && s.inTime ms bound)
      (s.enterS3 ms)

/-! ## Recovery (R482) -/

/-- The image received is verified and boots from slot A as TRIAL; one that fails is discarded. -/
def State.recoverNow (s : State) : State :=
  let t := s.boot.recv.foldl (fun (t : State) (e : Nat × Byte) => t.flashWrite 1 0 e.1 [e.2]) (s.flashErase 1 0)
  if t.verifyCode 1 0 = cOK then
    (t.setSlotsOf 1 { t.sec.msc with
      active := 0
      trial := true
      validA := true }).bootMsc 0
  else { s with boot := { s.boot with recv := [] } }

/-- RECOVERY_DATAGRAM (R482): a datagram of 8 to 1,024 bytes, or of none to start verification. -/
def execRecoveryDatagram (offset : Nat) (data : List Byte) (s : State) : Res :=
  let t : State := { s with boot := { s.boot with recv :=
    (data.foldl (fun (acc : Tab Byte × Nat) (b : Byte) => (Tab.put acc.1 acc.2 b, acc.2 + 1)) (s.boot.recv, offset)).1 } }
  wellFormed (decide (offset < 2 ^ 32) && (data == [] || decide (8 ≤ data.length ∧ data.length ≤ 1024)))
    (occurs s.boot.recovery (if data = [] then s.recoverNow else t))

end Sys2Proof.Machine
end

