-- ==== Sys2Proof/Machine/Matrix.lean ====
section
/-! DEFINITION. The matrix arrays: the descriptor and its checks, the issue gate, the terms of a run and how they
enter the A-store, the end of a run (R108 to R161, R166 to R169). -/

namespace Sys2Proof.Machine

/-! ## Geometry and descriptor (R108, R109, R112, R135) -/

/-- Paths of a run. -/
inductive Path where
  | dense8 | dense4 | lut
  deriving DecidableEq, Repr

/-- The path of a pair of codes, stationary then streamed (R109). -/
def pathOf (w c : Code) : Option Path :=
  match w with
  | .s8 => if c == .s8 || c == .u8 || c == .s4 || c == .u4 || c == .w16 || c == .w24 then some .dense8 else none
  | .u8 => if c == .s8 || c == .s4 then some .dense8 else none
  | .s4 =>
    if c == .s4 || c == .u4 then some .dense4
    else if c == .s8 || c == .u8 || c == .w16 || c == .w24 then some .dense8 else none
  | .u4 => if c == .s8 || c == .u8 || c == .s4 || c == .u4 then some .lut else none
  | .cb4 => if c == .s8 || c == .u8 || c == .s4 || c == .u4 then some .lut else none
  | _ => none

/-- A matrix instruction taken apart. -/
structure Mx where
  arrays : List Nat
  passes : Nat
  trans : Bool
  swap : Bool
  acc : Bool
  sash : Bool
  rows : Nat
  win : Nat
  given : Bool
  anchor : Nat
  sf : Fmt
  wf : Fmt
  path : Path
  sAddr : Nat
  sPitch : Nat
  sPlane : Nat
  sScale : Nat
  wAddr : Nat
  wPitch : Nat
  wStride : Nat
  wScale : Nat
  wsStride : Nat
  table : Nat
  cb : Nat
  base : Nat
  deriving DecidableEq, Repr

/-- Arrays that ARRAYS names. -/
def mxArrays (d : Desc) : List Nat := (List.range 4).filter (fun a => bitAt d.w0 (36 + a))

/-- The run that a descriptor spells, when its formats make a path. -/
def mxOf (d : Desc) : Option Mx :=
  match fmtOf (fld d.w1 63 48), fmtOf (fld d.w3 63 48) with
  | some sf, some wf =>
    (pathOf wf.code sf.code).map (fun p =>
      { arrays := mxArrays d, passes := fld d.w0 33 32, trans := bitAt d.w0 28, swap := bitAt d.w0 27,
        acc := bitAt d.w0 26, sash := fld d.w0 25 24 == 1, rows := fld d.w0 21 12 + 1, win := fld d.w0 53 52,
        given := bitAt d.w0 54, anchor := fld d.w0 63 55, sf := sf, wf := wf, path := p,
        sAddr := fld d.w1 21 0, sPitch := fld d.w1 47 32, sPlane := fld d.w2 53 32, sScale := fld d.w2 21 0,
        wAddr := fld d.w3 21 0, wPitch := fld d.w3 47 32, wStride := fld d.w4 53 32, wScale := fld d.w4 21 0,
        wsStride := fld d.w5 53 32, table := fld d.w5 21 0, cb := fld d.w6 21 0, base := fld d.w6 63 40 })
  | _, _ => none

/-- KT: k-extent of a stationary tile. -/
def Mx.kt (m : Mx) : Nat := (if m.path = .dense4 then 256 else 128) / (if m.sash then 8 else 1)
/-- NT: outputs per streamed row. -/
def Mx.nt (m : Mx) : Nat := if m.sash then 1024 else 128
/-- L: load steps. -/
def Mx.load (m : Mx) : Nat := if m.sash then 16 else 128
/-- Most rows of a pass. -/
def Mx.maxRows (m : Mx) : Nat := if m.sash then 64 else if m.path = .lut then 128 else 1024
/-- Blocks of an operand along k: J of R112. -/
def Mx.blocks (m : Mx) (f : Fmt) : Nat := if f.b = 0 ∨ m.kt < f.b then 1 else m.kt / f.b
/-- Bytes of a streamed row in one plane. -/
def Mx.sRow (m : Mx) : Nat := m.kt * m.sf.code.bits / 8
/-- Rows of the stationary tile as it lies in core store. -/
def Mx.wRows (m : Mx) : Nat := if m.trans then m.nt else m.kt
/-- Bytes of such a row. -/
def Mx.wRow (m : Mx) : Nat := (if m.trans then m.kt else m.nt) * m.wf.code.bits / 8
/-- The run names an array other than M0, so that it reads the strides between arrays. -/
def Mx.strided (m : Mx) : Bool := m.arrays != [0]
/-- The path is the LUT path. -/
def Mx.isLut (m : Mx) : Bool := m.path == .lut

/-! ## Operand ranges in core store (R112) -/

/-- Streamed data rows: pass, row, range. -/
def Mx.streamRows (m : Mx) : List (Nat × Nat) :=
  if m.isLut then []
  else (List.range m.passes).flatMap (fun p => (List.range m.rows).map (fun r => (m.sAddr + p * m.sPlane + r * m.sPitch, m.sRow)))

/-- Streamed scales or row parameters. -/
def Mx.scaleRange (m : Mx) : List (Nat × Nat) :=
  if m.sf.affine then [(m.sScale, 16 * m.rows)]
  else if m.sf.scaled then [(m.sScale, m.rows * m.blocks m.sf)] else []

/-- Stationary data of the arrays named. -/
def Mx.wRanges (m : Mx) : List (Nat × Nat) :=
  m.arrays.flatMap (fun a => (List.range m.wRows).map (fun i => (m.wAddr + a * m.wStride + i * m.wPitch, m.wRow)))

/-- Stationary scales of the arrays named. -/
def Mx.wScales (m : Mx) : List (Nat × Nat) :=
  if m.wf.scaled then m.arrays.map (fun a => (m.wScale + a * m.wsStride, m.blocks m.wf * m.nt)) else []

/-- Tables. -/
def Mx.tables (m : Mx) : List (Nat × Nat) := if m.isLut then [(m.table, m.rows * m.kt * 32)] else []

/-- Codebook. -/
def Mx.codebook (m : Mx) : List (Nat × Nat) := if m.wf.code = .cb4 then [(m.cb, 16)] else []

/-- The operands in the order of MX_HELD.OPERAND. -/
def Mx.operands (m : Mx) : List (List (Nat × Nat)) :=
  [m.streamRows, m.scaleRange, m.wRanges, m.wScales, m.tables, m.codebook]

/-! ## Descriptor checks (R114, R136, R376) -/

/-- The largest PASSES of the common profile. -/
def State.maxPasses (s : State) : Nat :=
  let a := allowedOf s.genBase
  a / 2 ^ 16 % 4

/-- Conditions on word 0. -/
def State.mxChecks0 (s : State) (n x : Nat) (d : Desc) : List Check :=
  let shape := fld d.w0 25 24
  let arrs := mxArrays d
  let a := allowedOf s.genBase
  [ (0, 0, cRANGE, opOf d != 0x10), resv d 0 11 8, resv d 0 23 22,
    (0, 24, cRANGE, decide (2 ≤ shape) || (shape == 1 && decide (64 < fld d.w0 21 12 + 1))),
    (0, 24, cVERSION, shape == 1 && !a.testBit 13),
    (0, 28, cRANGE, bitAt d.w0 28 && shape == 1), resv d 0 31 29,
    (0, 32, cRANGE, fld d.w0 33 32 == 0), (0, 32, cVERSION, decide (s.maxPasses < fld d.w0 33 32)), resv d 0 35 34,
    (0, 36, cRANGE, arrs == []), (0, 36, cCONFLICT, arrs.any (fun k => s.arrOwner n k != x)),
    (0, 36, cDEPENDENCY, arrs.any (fun k => !s.enabled (pMXA n k))),
    (0, 41, (s.sigRefusal n x d).getD 0, (s.sigRefusal n x d).isSome), resv d 0 51 48,
    (0, 52, cRANGE, fld d.w0 53 52 == 3),
    (0, 52, cVERSION, s.genBase != 0 && fld d.w0 53 52 != a / 2 ^ 18 % 4),
    (0, 55, cRANGE, !bitAt d.w0 26 && bitAt d.w0 54 && decide (508 < fld d.w0 63 55)) ]

/-- Conditions on the two formats. -/
def State.mxFmtChecks (s : State) (d : Desc) : List Check :=
  let sv := fld d.w1 63 48
  let wv := fld d.w3 63 48
  let sBad := (match fmtOf sv with
    | none => true
    | some f => !accepts .streamed f.code || f.col || fld d.w0 33 32 != f.code.planes)
  let wBad := (match fmtOf wv with
    | none => true
    | some f => !accepts .stationary f.code || f.affine || (f.scaled && f.col == bitAt d.w0 28))
  let pair := (match mxOf d with
    | none => true
    | some m => decide (m.maxRows < m.rows) || (m.isLut && (m.sf.affine || m.passes != 1)))
  [ (1, 48, cRANGE, sBad), (1, 48, cVERSION, s.fmtOld sv), (3, 48, cRANGE, wBad || pair), (3, 48, cVERSION, s.fmtOld wv ||
      (match mxOf d with
      | none => false
      | some m => m.isLut && !(allowedOf s.genBase).testBit 12)) ]

/-- Conditions on addresses, pitches and strides of the operands the run reads (R114). -/
def State.mxAddrChecks (s : State) (n x : Nat) (m : Mx) : List Check :=
  let lut := m.isLut
  let many := decide (1 < m.passes)
  let scaled := m.sf.scaled || m.sf.affine
  let sEnd := !s.inside n x m.streamRows
  let wEnd := !s.inside n x m.wRanges
  let wsEnd := !s.inside n x m.wScales
  [ (1, 0, cALIGN, !lut && m.sAddr % 64 != 0),
    (1, 0, cRANGE, !lut && !many && m.rows == 1 && sEnd),
    (1, 32, cALIGN, !lut && m.sPitch % 8 != 0),
    (1, 32, cRANGE, !lut && decide (1 < m.rows) && (decide (m.sPitch < m.sRow) || (!many && sEnd))),
    (2, 0, cALIGN, scaled && m.sScale % 64 != 0), (2, 0, cRANGE, !s.inside n x m.scaleRange),
    (2, 32, cALIGN, !lut && many && m.sPlane % 64 != 0),
    (2, 32, cRANGE, !lut && many && (decide (m.sPlane < m.rows * m.sPitch) || sEnd)),
    (3, 0, cALIGN, m.wAddr % 64 != 0), (3, 32, cALIGN, m.wPitch % 8 != 0),
    (3, 32, cRANGE, decide (m.wPitch < m.wRow) || (!m.strided && wEnd)),
    (4, 0, cALIGN, m.wf.scaled && m.wScale % 64 != 0), (4, 0, cRANGE, !m.strided && wsEnd),
    (4, 32, cALIGN, m.strided && m.wStride % 64 != 0), (4, 32, cRANGE, m.strided && wEnd),
    (5, 0, cALIGN, lut && m.table % 64 != 0), (5, 0, cRANGE, !s.inside n x m.tables),
    (5, 32, cALIGN, m.strided && m.wf.scaled && m.wsStride % 64 != 0), (5, 32, cRANGE, m.strided && wsEnd),
    (6, 0, cALIGN, m.wf.code == .cb4 && m.cb % 64 != 0), (6, 0, cRANGE, !s.inside n x m.codebook) ]

/-- What is judged of addresses, pitches and strides up to W_FMT where the formats make no path (R136): alignments, and the
plane stride, which depend on no path. -/
def mxBareChecks (d : Desc) : List Check :=
  let many := decide (1 < fld d.w0 33 32)
  let rows := fld d.w0 21 12 + 1
  let scaled := (match fmtOf (fld d.w1 63 48) with
    | none => false
    | some f => f.scaled || f.affine)
  [ (1, 0, cALIGN, fld d.w1 21 0 % 64 != 0), (1, 32, cALIGN, fld d.w1 47 32 % 8 != 0),
    (2, 0, cALIGN, scaled && fld d.w2 21 0 % 64 != 0), (2, 32, cALIGN, many && fld d.w2 53 32 % 64 != 0),
    (2, 32, cRANGE, many && decide (fld d.w2 53 32 < rows * fld d.w1 47 32)),
    (3, 0, cALIGN, fld d.w3 21 0 % 64 != 0), (3, 32, cALIGN, fld d.w3 47 32 % 8 != 0) ]

/-- The first refusal of a matrix descriptor, the tile-state conditions apart. -/
def State.mxRefusal (s : State) (n x : Nat) (d : Desc) : Option Refuse :=
  firstRefusal (s.mxChecks0 n x d ++ s.mxFmtChecks d ++
    [ resv d 1 31 22, resv d 2 31 22, resv d 2 63 54, resv d 3 31 22, resv d 4 31 22, resv d 4 63 54, resv d 5 31 22,
      resv d 5 63 54, resv d 6 39 22, resv d 7 63 0 ] ++
    (match mxOf d with
    | none => mxBareChecks d
    | some m => s.mxAddrChecks n x m))

/-- Conditions on the state of the output tiles (R115, R119, R143). -/
def State.mxTileRefusal (s : State) (n : Nat) (m : Mx) : Option Refuse :=
  let open_ (a : Nat) : Bool := s.liveState n a != 0
  firstRefusal
    [ (0, 26, cSTATE, m.acc && m.arrays.any (fun a => !open_ a)),
      (0, 26, cCONFLICT, m.acc && m.arrays.any (fun a => open_ a &&
        ((s.arr n a).live.rows != m.rows || (s.arr n a).live.shape != b2n m.sash))),
      (0, 52, cCONFLICT, m.acc && m.arrays.any (fun a => open_ a && s.rf (pMXA n a) 0x190 13 12 != m.win)) ]

/-! ## Elements and scales (R76 to R90, R112, R162) -/

/-- The four bits or the byte of element `k` of a row at an address. -/
def State.rawAt (s : State) (n addr k bits : Nat) : Nat :=
  if bits = 4 then s.storeByte n (addr + k / 2) / (if k % 2 = 0 then 1 else 16) % 16
  else s.storeByte n (addr + k)

/-- The block of an operand that holds position `k`. -/
def blockIdx (f : Fmt) (kt k : Nat) : Nat := if f.b = 0 ∨ kt < f.b then 0 else k / f.b

/-- The row record of a streamed row. -/
def State.mxRec (s : State) (n : Nat) (m : Mx) (r : Nat) : RowRec := s.rowRec n (m.sScale + 16 * r)

/-- E8 of the streamed block of row `r` that holds position `k`, as the anchor reads it (R144, R168). -/
def State.mxEs (s : State) (n : Nat) (m : Mx) (r k : Nat) : Nat :=
  if m.sf.affine then
    let p := s.mxRec n m r
    if p.const then p.c.toNat / 2 ^ 23 % 256 - 23 else 0x7F
  else if m.sf.scaled then s.storeByte n (m.sScale + r * m.blocks m.sf + blockIdx m.sf m.kt k)
  else 0x7F

/-- E8 code that a streamed block counts with in its terms (R140). -/
def State.mxEsTerm (s : State) (n : Nat) (m : Mx) (r k : Nat) : Nat :=
  if m.sf.scaled then s.mxEs n m r k else 0x7F

/-- E8 of the stationary block of column `c` of an array that holds position `k`. -/
def State.mxEw (s : State) (n : Nat) (m : Mx) (a c k : Nat) : Nat :=
  if m.wf.scaled then
    let j := blockIdx m.wf m.kt k
    s.storeByte n (m.wScale + a * m.wsStride + (if m.trans then c * m.blocks m.wf + j else j * m.nt + c))
  else 0x7F

/-- The streamed element of a pass: the lower planes of a wide code are U8, its top plane S8 (R85, R86). -/
def State.mxStream (s : State) (n : Nat) (m : Mx) (p r k : Nat) : Elem :=
  let addr := m.sAddr + p * m.sPlane + r * m.sPitch
  if m.sf.code.wide then
    let b := s.storeByte n (addr + k)
    if p + 1 < m.passes then ⟨(b : Int), false⟩ else decodeElem .s8 (fun _ => 0) b
  else decodeElem m.sf.code (fun _ => 0) (s.rawAt n addr k m.sf.code.bits)

/-- The raw stationary code at position `k` of column `c` of an array. -/
def State.mxRawW (s : State) (n : Nat) (m : Mx) (a c k : Nat) : Nat :=
  let base := m.wAddr + a * m.wStride
  if m.trans then s.rawAt n (base + c * m.wPitch) k m.wf.code.bits
  else s.rawAt n (base + k * m.wPitch) c m.wf.code.bits

/-- The stationary element at a position. -/
def State.mxStat (s : State) (n : Nat) (m : Mx) (a c k : Nat) : Elem :=
  decodeElem m.wf.code (fun i => s.storeByte n (m.cb + i)) (s.mxRawW n m a c k)

/-- The table entry that a stationary code selects for position `k` of a row (R124). -/
def State.mxTable (s : State) (n : Nat) (m : Mx) (r k e : Nat) : Nat := s.storeNat n (m.table + r * m.kt * 32 + k * 32 + e * 2) 2

/-! ## k-blocks and the anchor (R144, R145) -/

/-- Positions in a k-block. -/
def Mx.kblock (m : Mx) : Nat :=
  let b := if m.sf.b = 0 then (if m.wf.b = 0 then 16 else m.wf.b) else if m.wf.b = 0 then m.sf.b else min m.sf.b m.wf.b
  min b m.kt

/-- Number of k-blocks. -/
def Mx.jn (m : Mx) : Nat := m.kt / m.kblock

/-- The largest of a list of E8 codes other than 0xFF. -/
def maxE8 (l : List Nat) : Option Nat :=
  l.foldl (fun b e => if e = 255 then b else match b with
    | none => some e
    | some v => some (max v e)) none

/-- The largest scale-exponent sum of a k-block of an array. -/
def State.mxBlockMax (s : State) (n : Nat) (m : Mx) (a j : Nat) : Option Nat :=
  let k := j * m.kblock
  match maxE8 ((List.range m.rows).map (fun r => s.mxEs n m r k)), maxE8 ((List.range m.nt).map (fun c => s.mxEw n m a c k)) with
  | some u, some v => some (u + v)
  | _, _ => none

/-- The anchor by look-ahead. -/
def State.lookahead (s : State) (n : Nat) (m : Mx) (a : Nat) : Nat :=
  let best := (List.range m.jn).foldl (fun b j =>
    match s.mxBlockMax n m a j, b with
    | none, b => b
    | some v, none => some v
    | some v, some w => some (max v w)) (none : Option Nat)
  best.getD 508

/-- The ceiling of an array's tile: its own when open, that of the opening run otherwise (R143). -/
def State.mxCeiling (s : State) (n : Nat) (m : Mx) (a : Nat) : Nat :=
  if m.acc then s.rf (pMXA n a) 0x190 8 0 + 8 * (s.rf (pMXA n a) 0x190 11 10 - 1)
  else (if m.given then m.anchor else s.lookahead n m a) + 8 * (m.passes - 1)

/-- The comparison of step 6 takes place. -/
def Mx.compares (m : Mx) : Bool := m.acc || m.given

/-- The first k-block whose largest term exponent is above the ceiling, with that exponent (R145); `inj` takes
the first block's exponent as one above it. -/
def State.mxLow (s : State) (n : Nat) (m : Mx) (a : Nat) (inj : Bool) : Option (Nat × Nat) :=
  let c := s.mxCeiling n m a
  if !m.compares then none
  else
    (List.range m.jn).findSome? (fun j =>
      if j = 0 ∧ inj then some (0, c + 1)
      else
        match s.mxBlockMax n m a j with
        | none => none
        | some v => if c < v + 8 * (m.passes - 1) then some (j, v + 8 * (m.passes - 1)) else none)

/-! ## Tags (R95, R119 step 5) -/

/-- The first mismatch of the streamed operand: row, first k-block, plane, tags. -/
def State.mxStreamSkew (s : State) (n : Nat) (m : Mx) : Option (Nat × Nat × Nat × Nat × Nat) :=
  if m.isLut then none
  else if m.sf.affine then
    (List.range m.rows).findSome? (fun r =>
      (s.skewOf n (rangeFrom (m.sAddr + r * m.sPitch) m.sRow) 0 (m.sScale + 16 * r)).map (fun t => (r, 0, 0, t.1, t.2)))
  else if !m.sf.scaled then none
  else
    let len := m.sRow / m.blocks m.sf
    (List.range m.rows).findSome? (fun r => (List.range (m.blocks m.sf)).findSome? (fun j =>
      (List.range m.passes).findSome? (fun p =>
        (s.skewOf n (rangeFrom (m.sAddr + p * m.sPlane + r * m.sPitch + j * len) len) 0 (m.sScale + r * m.blocks m.sf + j)).map
          (fun t => (r, j * m.sf.b / m.kblock, p, t.1, t.2)))))

/-- Bytes of a stationary block of an array. -/
def Mx.wBlockBytes (m : Mx) (a c j : Nat) : List Nat :=
  let base := m.wAddr + a * m.wStride
  let b := min m.wf.b m.kt
  if m.trans then rangeFrom (base + c * m.wPitch + j * b * m.wf.code.bits / 8) (b * m.wf.code.bits / 8)
  else (List.range b).map (fun i => base + (j * b + i) * m.wPitch + c * m.wf.code.bits / 8)

/-- The first mismatch of the stationary operand of an array. -/
def State.mxStatSkew (s : State) (n : Nat) (m : Mx) (a : Nat) : Option (Nat × Nat × Nat × Nat × Nat) :=
  if !m.wf.scaled then none
  else
    let odd (c : Nat) : Nat := if !m.trans && m.wf.code.four && c % 2 == 1 then 1 else 0
    (List.range m.nt).findSome? (fun c => (List.range (m.blocks m.wf)).findSome? (fun j =>
      (s.skewOf n (m.wBlockBytes a c j) (odd c)
        (m.wScale + a * m.wsStride + (if m.trans then c * m.blocks m.wf + j else j * m.nt + c))).map
        (fun t => (c, j * m.wf.b / m.kblock, 0, t.1, t.2))))

/-- MXA.SKEW of a mismatch. -/
def skewWord (base idx kb plane dtag stag operand : Nat) : Nat :=
  stag * 2 ^ 56 + dtag * 2 ^ 48 + (base + kb) % 2 ^ 24 * 2 ^ 16 + operand * 2 ^ 12 + plane * 2 ^ 10 + idx

/-- The run compares block tags on its arrays. -/
def Mx.tagged (m : Mx) : Bool := (!m.isLut && (m.sf.scaled || m.sf.affine)) || m.wf.scaled

/-- The skew of one array, with the injection of point 1: MXA.SKEW when a tag mismatches. -/
def State.mxArraySkew (s : State) (n : Nat) (m : Mx) (a : Nat) : Option Nat × State :=
  let r := if m.tagged then s.inject (pMXA n a) 1 else (false, s)
  let s := r.2
  if r.1 then
    let d := s.draw
    let streamed := !m.isLut && (m.sf.scaled || m.sf.affine)
    (some (skewWord m.base 0 0 0 (Config.freeNat d.1 % 256) (Config.freeNat (d.1 + 1) % 256) (b2n (!streamed))), d.2.draw.2)
  else
    match s.mxStreamSkew n m with
    | some t => (some (skewWord m.base t.1 t.2.1 t.2.2.1 t.2.2.2.1 t.2.2.2.2 0), s)
    | none => ((s.mxStatSkew n m a).map (fun t => skewWord m.base t.1 t.2.1 t.2.2.1 t.2.2.2.1 t.2.2.2.2 1), s)

/-! ## Faults of a matrix instruction -/

/-- A matrix instruction faults: its tiles are aborted (R131). -/
def State.mxFault (s : State) (n x : Nat) (i : Ins) (unit cls code info : Nat) (multi : Bool) : State :=
  let s := (s.takeIns n x i).finishIns n x i
  (s.abortTiles n x (mxArrays i.desc)).faultCtx n x
    { unit := unit, cls := cls, code := code, pc := i.pc, info := info, multi := multi }

/-- The lowest array that a descriptor names. -/
def mxUnit (d : Desc) : Nat := (mxArrays d).headD 0

/-- A refused matrix descriptor. -/
def State.mxRefuse (s : State) (n x : Nat) (i : Ins) (r : Refuse) : State :=
  s.mxFault n x i (mxUnit i.desc) (refusalClass 0x20 r) r.code r.info false

/-- A fault at step 5 or 6 of R119, or under R133: ABORT on every array named, and another event on those that it arose on;
on several at once MULTI is set (R132).  A codebook that fails R81 raises ABORT alone and reports word 6, bit 0: DESIGN
CHOICES, log entry 54. -/
def State.mxAbort (s : State) (n x : Nat) (i : Ins) (unit code : Nat) (bit : Option Nat) (arrs : List Nat) : State :=
  let s := s.mxFault n x i unit 0x20 code (if code = cRANGE then 6 else 0) (decide (1 < arrs.length))
  let s := (mxArrays i.desc).foldl (fun (s : State) (a : Nat) => s.raise (pMXA n a) 0) s
  match bit with
  | none => s
  | some b => arrs.foldl (fun (s : State) (a : Nat) => s.raise (pMXA n a) b) s

/-! ## Decode (R118) -/

/-- MATRIX_INSTRUCTION (R118, R119 step 1, R135): a descriptor that reaches an empty queue is judged at once. -/
def execMatrixInstruction (i : Issue) (s : State) : Res :=
  let n := i.core.val
  let x := i.ctx.val
  let bad := if ((s.ctx n x).head 0).isSome then none else s.mxRefusal n x i.desc
  wellFormed (opOk matGap 0x10 i.desc)
    (s.issueGen i 0 (bad.map (fun (r : Refuse) (ins : Ins) (t : State) => t.mxRefuse n x ins r)) [])

/-! ## The gate (R119, R440) -/

/-- What the head of the matrix queue waits for (R119 steps 2 to 4): 0 nothing, else the code of MX_HELD.WAIT with
its operand and the address of the first line not resident. -/
def State.mxWait (s : State) (n x : Nat) (m : Mx) : Nat × Nat × Nat :=
  if m.arrays.any (fun a => s.liveState n a == 2) || (s.ctx n x).fly.any (fun j => j.cls == 0) then (2, 0, 0)
  else
    match (List.range 6).findSome? (fun o => (s.notResident n (m.operands.getD o [])).map (fun l => (o, l * 64))) with
    | some (o, a) => (3, o, a)
    | none => if m.swap && m.arrays.any (fun a => s.shadowState n a != 0) then (4, 0, 0) else (0, 0, 0)

/-- COR.CTX[c].MX_HELD (R138). -/
def State.mxHeld (s : State) (n x : Nat) : Nat :=
  match s.ready n x 0 with
  | none => 0
  | some i =>
    match mxOf i.desc with
    | none => 0
    | some m =>
      let w := s.mxWait n x m
      if w.1 ≠ 0 then w.1 * 2 ^ 48 + w.2.1 * 2 ^ 40 + w.2.2
      else if !s.fitsMany n 18 m.arrays.length then 5 * 2 ^ 48 else 0

/-- The codebook of a run has an entry of 0x80 (R81). -/
def State.badCodebook (s : State) (n cb : Nat) : Bool := (s.storeBytes n cb 16).contains 0x80

/-- A row record that a run reads breaks its layout (R162). -/
def State.mxBadRec (s : State) (n : Nat) (m : Mx) : Bool :=
  m.sf.affine && (List.range m.rows).any (fun r => !(s.mxRec n m r).ok)

/-- Step 5 of R119: the event arrays and the code, or none. -/
def State.mxSkews (s : State) (n : Nat) (m : Mx) : List Nat × State :=
  m.arrays.foldl (fun (acc : List Nat × State) (a : Nat) =>
    let r := acc.2.mxArraySkew n m a
    match r.1 with
    | none => (acc.1, r.2)
    | some w => (acc.1 ++ [a], r.2.setReg (pMXA n a) 0x128 (BitVec.ofNat 64 w))) ([], s)

/-- Step 6 of R119: the arrays that a term exponent is too high for. -/
def State.mxLows (s : State) (n : Nat) (m : Mx) : List Nat × State :=
  m.arrays.foldl (fun (acc : List Nat × State) (a : Nat) =>
    let r := if m.compares then acc.2.inject (pMXA n a) 2 else (false, acc.2)
    match r.2.mxLow n m a r.1 with
    | none => (acc.1, r.2)
    | some (j, t) =>
      (acc.1 ++ [a], (r.2.setRf (pMXA n a) 0x190 63 40 (m.base + j)).setRf (pMXA n a) 0x190 39 30 t)) ([], s)

/-- The live set of an array takes the run: a new tile when it opens one (R115, R142, R143, R159).  An opening run clears the
whole set, the entries it does not reach among them: DESIGN CHOICE, log entry 55. -/
def State.mxTake (s : State) (n : Nat) (m : Mx) (a : Nat) : State :=
  let page := pMXA n a
  let anchor := if m.given then m.anchor else s.lookahead n m a
  let s := if m.acc then s
    else
      let s := s.setArr n a { s.arr n a with live := { rows := m.rows, shape := b2n m.sash } }
      let s := s.setRf page 0x188 2 0 0
      s.setRf page 0x190 13 0 (m.win * 2 ^ 12 + m.passes * 2 ^ 10 + b2n m.given * 2 ^ 9 + anchor)
  let s := s.setRf page 0x100 47 32 m.rows
  let s := s.setRf page 0x100 25 24 (b2n m.sash)
  let s := s.setRf page 0x100 9 8 2
  let r := s.inject page 3
  if r.1 then r.2.setArr n a { r.2.arr n a with injNar := true } else r.2

/-- The lines of a run are pinned, those of the stationary tiles and scales up to step L (R120). -/
def State.mxPin (s : State) (n x seq : Nat) (m : Mx) : State :=
  let s := s.setCtx n x { s.ctx n x with loaded := [] }
  let s := s.pin n x seq true (linesOfAll (m.wRanges ++ m.wScales))
  s.pin n x seq false (linesOfAll (m.streamRows ++ m.scaleRange ++ m.tables ++ m.codebook))

/-- An injection of point 4 on an array of the run (R517). -/
def State.mxInjLine (s : State) (n : Nat) (m : Mx) : Bool × State :=
  m.arrays.foldl (fun (acc : Bool × State) (a : Nat) =>
    let r := acc.2.inject (pMXA n a) 4
    (acc.1 || r.1, r.2)) (false, s)

/-- A released run ends early (R133): the load and stream steps before the line are counted, the tile is
aborted, the context faults. -/
def State.mxPoison (s : State) (n x : Nat) (i : Ins) (m : Mx) (load stream : Nat) : State :=
  let s := m.arrays.foldl (fun (s : State) (a : Nat) =>
    let s := ((s.addReg (pMXA n a) 0x108 1).addReg (pMXA n a) 0x110 load).addReg (pMXA n a) 0x118 stream
    s.setArr n a { s.arr n a with injNar := false }) s
  let s := ((s.unpin n x i.seq).freeDemand n x i.seq).mxAbort n x i (mxUnit i.desc) 0x42 none []
  s.contained

/-- Steps 5 and 6 of R119 and the release.  A codebook that fails at step 5 raises ABORT alone: the events beside ABORT belong to
the mismatch of tags and to the anchor (R161; DESIGN CHOICE, log entry 54). -/
def State.mxGate (s : State) (n x : Nat) (i : Ins) (m : Mx) : State :=
  if s.mxBadRec n m then s.mxRefuse n x i { code := cRANGE, word := 2, bit := 0 }
  else if m.wf.code == .cb4 && s.badCodebook n m.cb then s.mxAbort n x i (mxUnit i.desc) cRANGE none []
  else
    let k := s.mxSkews n m
    if k.1 ≠ [] then (k.2.mxAbort n x i (k.1.headD 0) 0x40 (some 1) k.1).contained
    else
      let l := k.2.mxLows n m
      if l.1 ≠ [] then (l.2.mxAbort n x i (l.1.headD 0) 0x41 (some 2) l.1).contained
      else
        let s := (l.2.takeIns n x i).commitMany n x i.seq 18 m.arrays.length
        let s := m.arrays.foldl (fun (s : State) (a : Nat) => s.mxTake n m a) (s.mxPin n x i.seq m)
        let r := s.mxInjLine n m
        if r.1 then r.2.mxPoison n x i m 0 0 else r.2

/-- RUN_RELEASE (R119, R440). -/
def execRunRelease (core : CoreId) (ctx : CtxId) (s : State) : Res :=
  let n := core.val
  let x := ctx.val
  match s.ready n x 0 with
  | none => .fault .notEnabled
  | some i =>
    match s.mxRefusal n x i.desc, mxOf i.desc with
    | some r, _ => (s.mxRefuse n x i r).advance
    | none, none => .fault .notEnabled
    | none, some m =>
      if (s.mxWait n x m).1 ≠ 0 then .fault .notEnabled
      else if !s.fitsMany n 18 m.arrays.length then
        (if s.waitsAlready n x i.seq then .fault .notEnabled else (s.waitEnvelope n x i.seq).done)
      else
        let r := s.inject (pCOR n) 1
        if r.1 then (r.2.coreFault n false).advance
        else
          match r.2.mxTileRefusal n m with
          | some f => (r.2.mxRefuse n x i f).advance
          | none => (r.2.mxGate n x i m).advance

/-! ## Terms (R139, R140, R147, R152, R166) -/

/-- An entry while terms enter it. -/
structure Entry64 where
  a : Int
  poison : Bool
  vanish : Bool := false
  sat : Bool := false
  /-- Pass, k-block and SOURCE of the term that poisoned it in this run. -/
  origin : Option (Nat × Nat × Nat) := none
  deriving DecidableEq, Repr

/-- Headroom and fraction of a window profile (R141). -/
def winBits (win : Nat) : Nat × Nat :=
  match win with
  | 0 => (21, 24)
  | 1 => (17, 20)
  | _ => (13, 16)

/-- enter of R147 for a term that is not NaR. -/
def enter (e : Entry64) (g t : Int) (c h f : Nat) : Entry64 :=
  if e.poison then e
  else
    let d : Int := (c : Int) - t
    let a0 := g.natAbs <<< f
    let a : Nat := if d ≥ 64 then 0 else a0 >>> d.toNat
    let e : Entry64 := { e with vanish := e.vanish || (g != 0 && a == 0) }
    let v : Int := if g < 0 then -(a : Int) else a
    let lim : Int := (2 ^ (h + 18 + f) : Nat) - 1
    if e.a = lim ∨ e.a = -lim then e
    else if e.a + v > lim then { e with a := lim, sat := true }
    else if e.a + v < -lim then { e with a := -lim, sat := true }
    else { e with a := e.a + v }

/-- A NaR term poisons its entry (R147, R152). -/
def enterNar (e : Entry64) (p j src : Nat) : Entry64 :=
  if e.poison then e else { e with poison := true, origin := some (p, j, src) }

/-- The SOURCE of a NaR term: pass, row, column, first position of the group.  Of several causes the lowest SOURCE counts, of
several groups of a k-block the first: DESIGN CHOICE, log entry 56. -/
def State.mxNar (s : State) (n : Nat) (m : Mx) (a p r c k0 : Nat) (inj : Bool) : Option Nat :=
  let ks := rangeFrom k0 16
  let top := p + 1 == m.passes
  let narRow := m.sf.affine && (s.mxRec n m r).nar
  if !m.isLut && top && ks.any (fun k => (s.mxStream n m p r k).nar) then some 0
  else if narRow || (m.sf.scaled && s.mxEs n m r k0 == 255) then some 1
  else if !m.isLut && ks.any (fun k => (s.mxStat n m a c k).nar) then some 2
  else if s.mxEw n m a c k0 = 255 then some 3
  else if m.isLut && ks.any (fun k => s.mxTable n m r k (s.mxRawW n m a c k) == 0x8000) then some 4
  else if inj && p == 0 && r == 0 && c == 0 && decide (k0 < m.kblock) then some 5
  else none

/-- The group sum (R139). -/
def State.mxSum (s : State) (n : Nat) (m : Mx) (a p r c k0 : Nat) : Int :=
  (rangeFrom k0 16).foldl (fun (g : Int) (k : Nat) =>
    g + (if m.isLut then toSigned 16 (s.mxTable n m r k (s.mxRawW n m a c k))
      else (s.mxStream n m p r k).i * (s.mxStat n m a c k).i)) 0

/-- The correction term of a stationary block of a row-affine row (R166). -/
def State.mxCorrect (s : State) (n : Nat) (m : Mx) (a r c k0 len ceil h f : Nat) (e : Entry64) : Entry64 :=
  let p := s.mxRec n m r
  let cs : Int := (rangeFrom k0 len).foldl (fun (g : Int) (k : Nat) => g + (s.mxStat n m a c k).i) 0
  let ew := s.mxEw n m a c k0
  if p.nar then e
  else if p.const then
    let d := decodeF p.c
    if d.k ≠ .finite then e
    else enter e ((if d.s then -(d.m : Int) else d.m) * cs) (d.e + 127 + ew) ceil h f
  else enter e (-p.z * cs) ((0x7F + ew : Nat) : Int) ceil h f

/-- Positions of the blocks that correction terms are entered for. -/
def Mx.corrBlock (m : Mx) : Nat := if m.wf.b = 0 then 16 else min m.wf.b m.kt

/-- The terms of one entry, in order of pass and k-group, corrections after their blocks (R148, R166). -/
def State.mxEntry (s : State) (n : Nat) (m : Mx) (a r c ceil : Nat) (inj : Bool) (e : Entry64) : Entry64 :=
  let w := winBits (s.rf (pMXA n a) 0x190 13 12)
  (List.range m.passes).foldl (fun (e : Entry64) (p : Nat) =>
    (List.range (m.kt / 16)).foldl (fun (e : Entry64) (g : Nat) =>
      let k0 := 16 * g
      let e := (match s.mxNar n m a p r c k0 inj with
        | some src => enterNar e p (k0 / m.kblock) src
        | none => enter e (s.mxSum n m a p r c k0)
            ((s.mxEsTerm n m r k0 + s.mxEw n m a c k0 + 8 * p : Nat) : Int) ceil w.1 w.2)
      if m.sf.affine && (k0 + 16) % m.corrBlock == 0 then
        s.mxCorrect n m a r c (k0 + 16 - m.corrBlock) m.corrBlock ceil w.1 w.2 e
      else e) e) e

/-- What a run does to one array. -/
structure ArrEnd where
  set : ASet
  poison : Bool := false
  sat : Bool := false
  vanish : Bool := false
  /-- Row, column, pass, k-block, SOURCE of the first poisoning. -/
  origin : Option (Nat × Nat × Nat × Nat × Nat) := none
  deriving DecidableEq, Repr

/-- Of two poisonings, the lower in order of pass, row, column, k-block (R153). -/
def firstOrigin (a b : Option (Nat × Nat × Nat × Nat × Nat)) : Option (Nat × Nat × Nat × Nat × Nat) :=
  match a, b with
  | none, b => b
  | a, none => a
  | some (r, c, p, j, q), some (r', c', p', j', q') =>
    if p < p' ∨ (p = p' ∧ (r < r' ∨ (r = r' ∧ (c < c' ∨ (c = c' ∧ j ≤ j'))))) then some (r, c, p, j, q)
    else some (r', c', p', j', q')

/-- All terms of a run enter the live set of an array. -/
def State.mxEnter (s : State) (n : Nat) (m : Mx) (a : Nat) : ArrEnd :=
  let ar := s.arr n a
  let page := pMXA n a
  let ceil := s.rf page 0x190 8 0 + 8 * (s.rf page 0x190 11 10 - 1)
  (List.range (m.rows * m.nt)).foldl (fun (z : ArrEnd) (ix : Nat) =>
    let e0 : Entry64 := { a := (Tab.get z.set.a 0 ix).toInt, poison := z.set.poison.contains ix }
    let e := s.mxEntry n m a (ix / m.nt) (ix % m.nt) ceil ar.injNar e0
    { set := { z.set with
        a := Tab.set z.set.a 0 ix (BitVec.ofInt 64 e.a)
        poison := if e.poison then insSet z.set.poison ix else z.set.poison }
      poison := z.poison || e.origin.isSome
      sat := z.sat || e.sat
      vanish := z.vanish || e.vanish
      origin := firstOrigin z.origin (e.origin.map (fun o => (ix / m.nt, ix % m.nt, o.1, o.2.1, o.2.2))) })
    { set := ar.live }

/-! ## The end of a run (R116, R122, R133, R153 to R161) -/

/-- MXA.POISON_ORIGIN of a first poisoning (R158). -/
def originWord (base : Nat) (o : Nat × Nat × Nat × Nat × Nat) : Nat :=
  2 ^ 63 + o.2.2.2.2 * 2 ^ 56 + o.2.2.1 * 2 ^ 54 + (base + o.2.2.2.1) % 2 ^ 24 * 2 ^ 30 + o.2.1 * 2 ^ 20 + o.1 * 2 ^ 10

/-- The swap of an array (R116, R155). -/
def State.mxSwap (s : State) (n a : Nat) : State :=
  let page := pMXA n a
  let ar := s.arr n a
  let s := s.setRf page 0x190 29 16 (s.rf page 0x190 13 0)
  let s := s.setRf page 0x188 18 16 (s.rf page 0x188 2 0)
  let s := s.setRf page 0x188 49 32 ar.live.poison.length
  let s := s.setArr n a { ar with shadow := ar.live }
  (s.emptyLive n a).setRf page 0x100 17 16 1

/-- The core store as the run of a context reads it: what the run has loaded stands as it was at step L (R110, R111). -/
def State.asLoaded (s : State) (n x : Nat) : State :=
  { s with mem := (s.ctx n x).loaded.foldl (fun (m : Mem) (e : Nat × List Byte × Bool) =>
      (m.write (storeAddr n (64 * e.1)) e.2.1).setPoison (storeAddr n 0 / 64 + e.1) e.2.2) s.mem }

/-- The normal end of a run on one array. -/
def State.mxEndArray (s : State) (n x : Nat) (m : Mx) (a : Nat) : State :=
  let page := pMXA n a
  let s := ((s.addReg page 0x108 1).addReg page 0x110 m.load).addReg page 0x118 (m.passes * m.rows)
  if s.liveState n a ≠ 2 then s
  else
    let z := (s.asLoaded n x).mxEnter n m a
    let s := s.setArr n a { s.arr n a with live := z.set, injNar := false }
    let s := s.setRf page 0x188 2 0 (s.rf page 0x188 2 0 ||| (b2n z.poison + 2 * b2n z.sat + 4 * b2n z.vanish))
    let s := (match z.origin with
      | none => s
      | some o => if bitAt (s.reg page 0x030) 3 then s else s.setReg page 0x180 (BitVec.ofNat 64 (originWord m.base o)))
    let s := (s.raiseIf z.poison page 3).raiseIf z.sat page 4
    let s := s.verdictSrcs [(9, z.poison), (10, z.sat)]
    if m.swap then s.mxSwap n a else s.setRf page 0x100 9 8 1

/-- The place in a run at which a line is read: load steps and stream steps performed before (R133). -/
def Mx.readAt (m : Mx) (line : Nat) : Option (Nat × Nat) :=
  let hit (rs : List (Nat × Nat)) : Bool := rs.any (fun r => (linesOf r.1 r.2).contains line)
  if hit (m.wRanges ++ m.wScales ++ m.codebook) then some (0, 0)
  else
    let sc (r : Nat) : List (Nat × Nat) :=
      if m.sf.affine then [(m.sScale + 16 * r, 16)]
      else if m.sf.scaled then [(m.sScale + r * m.blocks m.sf, m.blocks m.sf)] else []
    let dat (p r : Nat) : List (Nat × Nat) :=
      if m.isLut then [(m.table + r * m.kt * 32, m.kt * 32)] else [(m.sAddr + p * m.sPlane + r * m.sPitch, m.sRow)]
    ((List.range (m.passes * m.rows)).find? (fun q => hit (dat (q / m.rows) (q % m.rows) ++ sc (q % m.rows)))).map
      (fun q => (m.load, q))

/-- The first poisoned line that a run reads. -/
def State.mxFirstBad (s : State) (n : Nat) (m : Mx) : Option (Nat × Nat) :=
  let bad := (linesOfAll m.operands.flatten).filter (fun l => s.storeBad n l)
  bad.foldl (fun (b : Option (Nat × Nat)) (l : Nat) =>
    match m.readAt l, b with
    | none, b => b
    | some p, none => some p
    | some p, some q => if p.1 < q.1 ∨ (p.1 = q.1 ∧ p.2 < q.2) then some p else some q) none

/-- The matrix run in flight of a context. -/
def State.mxFly (s : State) (n x : Nat) : Option (Ins × Mx) :=
  match (s.ctx n x).fly.find? (fun j => j.cls == 0) with
  | none => none
  | some i => (mxOf i.desc).map (fun m => (i, m))

/-- Where the run in flight of a context still has to read a line (R133): a stationary, scale or codebook line is read by
step L. -/
def State.mxReading (s : State) (n x line : Nat) : Option (Ins × Mx × Nat × Nat) :=
  match s.mxFly n x with
  | none => none
  | some f => ((f.2.readAt line).filter (fun p => p != (0, 0) || (s.ctx n x).loaded == [])).map (fun p => (f.1, f.2, p))

/-- RUN_END (R117, R122): at the first poisoned line that it reads, or after its last row; a run whose output tile has been
aborted does not signal. -/
def execRunEnd (core : CoreId) (ctx : CtxId) (s : State) : Res :=
  let n := core.val
  let x := ctx.val
  match s.mxFly n x with
  | none => .fault .notEnabled
  | some (i, m) =>
    match (s.asLoaded n x).mxFirstBad n m with
    | some p => happens s.live (s.mxPoison n x i m p.1 p.2)
    | none =>
      let whole := m.arrays.all (fun a => s.liveState n a == 2)
      let t := m.arrays.foldl (fun (s : State) (a : Nat) => s.mxEndArray n x m a) s
      let t := ((t.unpin n x i.seq).freeDemand n x i.seq).finishIns n x i
      let t := t.setCtx n x { t.ctx n x with loaded := [] }
      happens s.live (if whole then t.signalTally n x i else t)

/-- The run of a context reaches step L: what it has loaded no longer depends on the core store (R110, R111, R133). -/
def State.mxLoaded (s : State) (n x : Nat) (m : Mx) : State :=
  s.setCtx n x { s.ctx n x with
    loaded := (linesOfAll (m.wRanges ++ m.wScales ++ m.codebook)).map (fun l => (l, s.storeBytes n (64 * l) 64, s.storeBad n l)) }

/-- STATIONARY_UNPIN (R120). -/
def execStationaryUnpin (core : CoreId) (ctx : CtxId) (s : State) : Res :=
  let n := core.val
  let x := ctx.val
  match s.mxFly n x with
  | none => .fault .notEnabled
  | some (i, m) =>
    let k := s.core n
    let mine (p : Pin) : Bool := p.ctx == x && p.stationary && p.seq == i.seq
    happens (s.live && k.pins.any mine) ((s.setCore n { k with pins := k.pins.filter (fun p => !mine p) }).mxLoaded n x m)

end Sys2Proof.Machine
end

