-- ==== Sys2Proof/Machine/Vector.lean ====
section
/-! DEFINITION. The vector engine: its descriptor, the twenty instructions, their release and completion, and the
poisoned line that ends an instruction or a run (R184 to R214, R133, R174, R198). -/

namespace Sys2Proof.Machine

/-! ## The descriptor (R188, R200, R205, R212) -/

/-- N. -/
def vN (d : Desc) : Nat := fld d.w0 31 12 + 1
/-- B_IMM. -/
def vImm (d : Desc) : Bool := bitAt d.w0 48
/-- RAW. -/
def vRaw (d : Desc) : Bool := bitAt d.w0 54
/-- ARRAY. -/
def vArray (d : Desc) : Nat := fld d.w0 53 52
/-- IMM. -/
def vImmWord (d : Desc) : Nat := fld d.w5 31 0
/-- GIVEN_E8, when it is used. -/
def vGiven (d : Desc) : Option Nat := if bitAt d.w0 55 then some (fld d.w0 63 56) else none
/-- The opcode reads operand B. -/
def opB (op : Nat) : Bool := decide (0x30 ≤ op ∧ op ≤ 0x36) || op == 0x3D || op == 0x40 || op == 0x42
/-- The opcode is a reduction. -/
def opReduce (op : Nat) : Bool := decide (0x3C ≤ op ∧ op ≤ 0x3F)
/-- The opcode reads operand A. -/
def opA (op : Nat) : Bool := op != 0x41

/-- The format field of operand word `k`. -/
def vFmt (d : Desc) (k : Nat) : Nat := fld (d.word k) 63 48

/-- Operand word `k` as a row of `cols` elements. -/
def vOpnd (d : Desc) (k cols : Nat) : Option Opnd :=
  (fmtOf (vFmt d k)).map (fun f =>
    { f := f, addr := fld (d.word k) 21 0, pitch := 0, plane := fld d.w6 53 32, scale := fld (d.word k) 43 22, rows := 1,
      cols := cols, cb := fld d.w6 21 0 })

/-- Words of the operands that the instruction loads element by element. -/
def vLoadWords (d : Desc) : List Nat :=
  let op := opOf d
  if op = 0x42 then [1, 2, 3, 4]
  else if op = 0x41 ∨ op = 0x43 then []
  else if op = 0x40 then [1]
  else [1] ++ (if opB op && !vImm d then [2] else []) ++ (if op = 0x33 then [3] else [])

/-- The operands loaded. -/
def vLoads (d : Desc) : List Opnd := (vLoadWords d).filterMap (fun k => vOpnd d k (vN d))

/-- D is written as plain bytes. -/
def vPlainD (d : Desc) : Bool := opOf d == 0x40 || (opOf d == 0x41 && vRaw d)

/-- Elements of D, with the entry count of the tile for VDRAIN. -/
def State.vDCount (s : State) (n : Nat) (d : Desc) : Nat :=
  if opReduce (opOf d) then 1
  else if opOf d = 0x41 then (let g := s.shadowGeom n (vArray d); g.1 * g.2)
  else vN d

/-- A CB4 operand is loaded. -/
def vHasBook (d : Desc) : Bool := (vLoads d).any (fun o => o.f.code == .cb4)

/-- Conditions on word 0. -/
def State.vecChecks0 (s : State) (n x : Nat) (d : Desc) : List Check :=
  let op := opOf d
  let drain := op == 0x41
  let blocked := !vPlainD d && (match vOpnd d 4 1 with
    | none => true
    | some o => o.f.scaled)
  [ (0, 0, cRANGE, !decide (0x30 ≤ op ∧ op ≤ 0x43)), resv d 0 11 8, (0, 12, cALIGN, op == 0x42 && vN d % 32 != 0), resv d 0 39 32,
    (0, 41, (s.sigRefusal n x d).getD 0, (s.sigRefusal n x d).isSome),
    (0, 48, cRANGE, vImm d && (!opB op || op == 0x40 || op == 0x42)), resv d 0 51 49,
    (0, 52, cRANGE, !drain && vArray d != 0), (0, 52, cCONFLICT, drain && s.arrOwner n (vArray d) != x),
    (0, 52, cDEPENDENCY, drain && !s.enabled (pMXA n (vArray d))),
    (0, 54, cRANGE, vRaw d && !drain && op != 0x43),
    (0, 55, cRANGE, bitAt d.w0 55 && (op == 0x42 || vPlainD d)),
    (0, 56, cRANGE, fld d.w0 63 56 == 255),
    (4, 48, cRANGE, bitAt d.w0 55 && !blocked) ]

/-- An operand word that the opcode does not use. -/
def vUnused (d : Desc) (k : Nat) : List Check := [resv d k 21 0, resv d k 43 22, resv d k 47 44, resv d k 63 48]

/-- A count of elements that blocks or pairs of 4-bit codes do not fill (R80, R89). -/
def Opnd.miscounted (o : Opnd) : Bool :=
  o.f.col || (o.f.b != 0 && o.cols % o.f.b != 0) || (o.f.code.four && o.cols % 2 == 1)

/-- Conditions on an operand of `cols` elements at word `k`: its counts, its places. -/
def State.vecOpnd (s : State) (n x k : Nat) (o : Opnd) : List Check :=
  [ (k, 48, cALIGN, o.miscounted),
    (k, 0, cALIGN, o.addr % 64 != 0), (k, 22, cALIGN, (o.f.scaled || o.f.affine) && o.scale % 64 != 0),
    (6, 32, cALIGN, o.f.code.wide && o.plane % 64 != 0),
    (if o.f.code.wide then 6 else k, if o.f.code.wide then 32 else 0, cRANGE, !s.inside n x o.data),
    (k, 22, cRANGE, !s.inside n x o.scales) ]

/-- Conditions on an operand loaded from word `k`. -/
def State.vecLoadChecks (s : State) (n x : Nat) (d : Desc) (k : Nat) : List Check :=
  let v := vFmt d k
  let op := opOf d
  let fixed := op == 0x42 && ((k == 1 && v != 0x0007) || (k == 3 && v != 0x0080) || (k == 4 && v != 0x0081))
  let lut := op == 0x40 && (match fmtOf v with
    | none => false
    | some f => f.affine || !(f.code == .s8 || f.code == .u8 || f.code == .s4 || f.code == .u4))
  [ resv d k 47 44, (k, 48, cRANGE, fmtBad .vload v || fixed || lut), (k, 48, cVERSION, s.fmtOld v) ] ++
  (match vOpnd d k (vN d) with
    | none => [(k, 0, cALIGN, fld (d.word k) 21 0 % 64 != 0)]
    | some o => s.vecOpnd n x k o)

/-- Conditions on B of LUTB: its FMT is judged on the N elements that A has. -/
def State.lutbChecks (s : State) (n x : Nat) (d : Desc) : List Check :=
  let v := vFmt d 2
  let code := (fmtOf v).map (fun f => f.code)
  let a := fld d.w2 21 0
  [ resv d 2 47 44, (2, 48, cRANGE, code != some .cb4 && code != some .u4),
    (2, 48, cALIGN, match vOpnd d 2 (vN d) with
      | none => false
      | some o => o.miscounted), (2, 48, cVERSION, s.fmtOld v),
    (2, 0, cALIGN, code == some .cb4 && a % 64 != 0), (2, 0, cRANGE, code == some .cb4 && !s.inRegion n x a 16) ]

/-- Conditions on D that need no shadow tile. -/
def State.vecDChecks (s : State) (n x : Nat) (d : Desc) : List Check :=
  let v := vFmt d 4
  let op := opOf d
  let a := fld d.w4 21 0
  if vPlainD d then
    [ resv d 4 43 22, resv d 4 47 44, resv d 4 63 48, (4, 0, cALIGN, a % 64 != 0),
      (4, 0, cRANGE, op == 0x40 && !s.inRegion n x a (32 * vN d)) ]
  else
    [ resv d 4 47 44,
      (4, 48, cRANGE, fmtBad .vstore v || (match fmtOf v with
        | none => true
        | some f => f.affine) || (op == 0x43 && vRaw d && v != 0x0007)), (4, 48, cVERSION, s.fmtOld v) ] ++
    (match vOpnd d 4 (s.vDCount n d) with
      | none => [(4, 0, cALIGN, a % 64 != 0)]
      | some o =>
        if op = 0x41 then
          [ (4, 0, cALIGN, o.addr % 64 != 0), (4, 22, cALIGN, o.f.scaled && o.scale % 64 != 0),
            (6, 32, cALIGN, o.f.code.wide && o.plane % 64 != 0) ]
        else s.vecOpnd n x 4 o)

/-- Conditions on words 5 to 7. -/
def State.vecChecks57 (s : State) (n x : Nat) (d : Desc) : List Check :=
  let op := opOf d
  let book := vHasBook d
  let cb := fld d.w6 21 0
  let p := vImmWord d % 2 ^ 22
  [ (5, 0, cRANGE, !vImm d && op != 0x42 && op != 0x43 && vImmWord d != 0),
    (5, 0, cRANGE, op == 0x42 && (decide (2 ^ 22 ≤ vImmWord d) || !s.inRegion n x p 64)),
    (5, 0, cALIGN, op == 0x42 && p % 64 != 0), resv d 5 63 32,
    (6, 0, cRANGE, if book then !s.inRegion n x cb 16 else cb != 0), (6, 0, cALIGN, book && cb % 64 != 0),
    resv d 6 31 22, resv d 6 63 54 ] ++
  (if op = 0x43 then [(7, 0, cRANGE, decide (2 ^ 48 < fld d.w7 47 0 + vN d)), resv d 7 63 49] else [resv d 7 63 0])

/-- The first refusal of a vector descriptor at step 1 of R198. -/
def State.vecRefusal (s : State) (n x : Nat) (d : Desc) : Option Refuse :=
  let op := opOf d
  let a := if op = 0x43 then
      [ (1, 0, cALIGN, fld d.w1 21 0 % 64 != 0), (1, 0, cRANGE, !s.inRegion n x (fld d.w1 21 0) 32), resv d 1 43 22,
        resv d 1 47 44, resv d 1 63 48 ]
    else if opA op then s.vecLoadChecks n x d 1 else vUnused d 1
  let b := if op = 0x40 then s.lutbChecks n x d
    else if (vLoadWords d).contains 2 then s.vecLoadChecks n x d 2 else vUnused d 2
  let c := if (vLoadWords d).contains 3 then s.vecLoadChecks n x d 3 else vUnused d 3
  let e := if op = 0x42 then s.vecLoadChecks n x d 4 else s.vecDChecks n x d
  firstRefusal (s.vecChecks0 n x d ++ a ++ b ++ c ++ e ++ s.vecChecks57 n x d)

/-- The first refusal of a VDRAIN by the conditions that need the tile (R198 step 3). -/
def State.vecDeferred (s : State) (n x : Nat) (d : Desc) : Option Refuse :=
  let e := s.vDCount n d
  if vRaw d then firstRefusal [(4, 0, cRANGE, !s.inRegion n x (fld d.w4 21 0) (8 * e))]
  else match vOpnd d 4 e with
    | none => none
    | some o => firstRefusal (s.vecOpnd n x 4 o)

/-- Ranges that an instruction writes, for a D of `cnt` elements. -/
def vWrites (d : Desc) (cnt : Nat) : List (Nat × Nat) :=
  let a := fld d.w4 21 0
  if opOf d = 0x40 then [(a, 32 * vN d)]
  else if opOf d = 0x41 ∧ vRaw d then [(a, 8 * cnt)]
  else
    let ks := if opOf d = 0x42 then [1, 3, 4] else [4]
    ks.flatMap (fun k => match vOpnd d k cnt with
      | none => []
      | some o => o.data ++ o.scales)

/-- Lines that a vector instruction will write, as its decode knows them (R120). -/
def State.vecLines (s : State) (n x : Nat) (d : Desc) : List Nat :=
  let g := s.drainGeom n x (vArray d)
  let rs := vWrites d (if opOf d = 0x41 then g.1 * g.2 else s.vDCount n d)
  if s.inside n x rs then linesOfAll rs else []

/-! ## Faults and decode -/

/-- A refused vector descriptor. -/
def State.vecRefuse (s : State) (n x : Nat) (i : Ins) (r : Refuse) : State :=
  s.engFault n x i true (refusalClass 0x23 r) r.code r.info

/-- A vector instruction faults with ABORT (R203). -/
def State.vecAbort (s : State) (n x : Nat) (i : Ins) (code : Nat) : State :=
  (s.engFault n x i true 0x23 code 0).raise (pVEC n) 0

/-- A vector instruction is decoded. -/
def State.issueVec (s : State) (own : Nat) (i : Issue) : Res :=
  let n := i.core.val
  let x := i.ctx.val
  let bad := s.vecRefusal n x i.desc
  wellFormed (opOk vecGap own i.desc)
    (s.issueGen i 1 ((if ((s.ctx n x).head 1).isSome then none else bad).map (fun (r : Refuse) (ins : Ins) (t : State) =>
      t.vecRefuse n x ins r)) (if bad.isSome then [] else s.vecLines n x i.desc))

/-- VADD (R188). -/
def execVadd (i : Issue) (s : State) : Res := s.issueVec 0x30 i
/-- VSUB (R188). -/
def execVsub (i : Issue) (s : State) : Res := s.issueVec 0x31 i
/-- VMUL (R188). -/
def execVmul (i : Issue) (s : State) : Res := s.issueVec 0x32 i
/-- VFMA (R188). -/
def execVfma (i : Issue) (s : State) : Res := s.issueVec 0x33 i
/-- VDIV (R188). -/
def execVdiv (i : Issue) (s : State) : Res := s.issueVec 0x34 i
/-- VMAX (R188). -/
def execVmax (i : Issue) (s : State) : Res := s.issueVec 0x35 i
/-- VMIN (R188). -/
def execVmin (i : Issue) (s : State) : Res := s.issueVec 0x36 i
/-- VCONV (R188, R189). -/
def execVconv (i : Issue) (s : State) : Res := s.issueVec 0x37 i
/-- VEXP (R191). -/
def execVexp (i : Issue) (s : State) : Res := s.issueVec 0x38 i
/-- VRCP (R190). -/
def execVrcp (i : Issue) (s : State) : Res := s.issueVec 0x39 i
/-- VRSQ (R190). -/
def execVrsq (i : Issue) (s : State) : Res := s.issueVec 0x3A i
/-- VLOG (R192). -/
def execVlog (i : Issue) (s : State) : Res := s.issueVec 0x3B i
/-- VRSUM (R193). -/
def execVrsum (i : Issue) (s : State) : Res := s.issueVec 0x3C i
/-- VRDOT (R193). -/
def execVrdot (i : Issue) (s : State) : Res := s.issueVec 0x3D i
/-- VRMAX (R193). -/
def execVrmax (i : Issue) (s : State) : Res := s.issueVec 0x3E i
/-- VRMIN (R193). -/
def execVrmin (i : Issue) (s : State) : Res := s.issueVec 0x3F i
/-- LUTB (R195). -/
def execLutb (i : Issue) (s : State) : Res := s.issueVec 0x40 i
/-- VDRAIN (R197). -/
def execVdrain (i : Issue) (s : State) : Res := s.issueVec 0x41 i
/-- VOPT (R205). -/
def execVopt (i : Issue) (s : State) : Res := s.issueVec 0x42 i
/-- VDICE (R212). -/
def execVdice (i : Issue) (s : State) : Res := s.issueVec 0x43 i

/-! ## Release (R198, R206, R207, R212) -/

/-- Ranges read whole at the start: codebooks, the parameter record, the seed record. -/
def vHeads (d : Desc) : List (Nat × Nat) :=
  let op := opOf d
  (if vHasBook d then [(fld d.w6 21 0, 16)] else []) ++
  (if op = 0x40 ∧ (fmtOf (vFmt d 2)).map (fun f => f.code) = some .cb4 then [(fld d.w2 21 0, 16)] else []) ++
  (if op = 0x42 then [(vImmWord d, 64)] else []) ++ (if op = 0x43 then [(fld d.w1 21 0, 32)] else [])

/-- Ranges that an instruction reads. -/
def vReads (d : Desc) : List (Nat × Nat) := vHeads d ++ (vLoads d).flatMap (fun o => o.data ++ o.scales)

/-- Parameter `i` of VOPT. -/
def State.vParam (s : State) (n : Nat) (d : Desc) (i : Nat) : F32 := BitVec.ofNat 32 (s.storeNat n (vImmWord d + 4 * i) 4)

/-- The parameter record refuses VOPT (R207). -/
def State.vParamBad (s : State) (n : Nat) (d : Desc) : Bool :=
  (List.range 9).any (fun i =>
    let p := s.vParam n d i
    p.toNat.testBit 31 || (decodeF p).k == .inf || (decodeF p).k == .nan) ||
  (rangeFrom 9 7).any (fun i => s.vParam n d i != 0)

/-- The refusal by what the instruction reads at release: codebooks, row records, parameters, seed. -/
def State.vecReadRefusal (s : State) (n : Nat) (d : Desc) : Option Refuse :=
  let op := opOf d
  let badBook (a : Nat) : Bool := (s.storeBytes n a 16).contains 0x80
  firstRefusal ((vLoadWords d).map (fun k => (k, 22, cRANGE, match vOpnd d k (vN d) with
      | none => false
      | some o => s.badRec n o)) ++
    [ (2, 0, cRANGE, op == 0x40 && (fmtOf (vFmt d 2)).map (fun f => f.code) == some .cb4 && badBook (fld d.w2 21 0)),
      (6, 0, cRANGE, vHasBook d && badBook (fld d.w6 21 0)), (5, 0, cRANGE, op == 0x42 && s.vParamBad n d),
      (1, 0, cRANGE, op == 0x43 && s.storeNat n (fld d.w1 21 0 + 24) 8 != 0) ])

/-- The instruction is in the vector engine. -/
def State.vecTake (s : State) (n x : Nat) (i : Ins) : State :=
  let s := (s.takeIns n x i).commitDemand n x i.seq 10
  let s := s.pin n x i.seq false (linesOfAll (vReads i.desc))
  let k := s.core n
  let s := s.setCore n { k with
    vec := some { ctx := x, ins := i, step := s.stepNo }
    turnV := 1 - x }
  if opOf i.desc = 0x41 then s.setRf (pMXA n (vArray i.desc)) 0x100 17 16 2 else s

/-- Step 4 of R198 and the release, with the injections of points 1 and 2. -/
def State.vecGate (s : State) (n x : Nat) (i : Ins) : State :=
  let k := s.skewAll n (pVEC n) (vLoads i.desc)
  match k.1 with
  | some w => (((k.2.setReg (pVEC n) 0x130 w).vecAbort n x i 0x40).raise (pVEC n) 1).contained
  | none =>
    let s := k.2.vecTake n x i
    let r := s.inject (pVEC n) 2
    if r.1 then (r.2.vecAbort n x i 0x41).contained else r.2

/-- A QDRAIN of the same shadow set has reached the array too and lies earlier in program order: it wins (R171). -/
def State.qdrainFirst (s : State) (n x : Nat) (i : Ins) : Bool :=
  opOf i.desc == 0x41 && (s.core n).qnt.isNone &&
    (match s.rivalDrain n x i.seq 2 0x21 (vArray i.desc) with
    | none => false
    | some j => (s.notReady n x j (s.qntReads n j.desc)).isNone)

/-- Nothing but the engine keeps an instruction from its release: lines, shadow set, order of drains (R171, R198). -/
def State.vecMay (s : State) (n x : Nat) (i : Ins) : Bool :=
  (s.notReady n x i (vReads i.desc)).isNone && !(opOf i.desc == 0x41 && s.drainStep n x i.seq (vArray i.desc) == 1) &&
    !s.qdrainFirst n x i

/-- VEC_RELEASE (R198). -/
def execVecRelease (core : CoreId) (ctx : CtxId) (s : State) : Res :=
  let n := core.val
  let x := ctx.val
  match s.ready n x 1 with
  | none => .fault .notEnabled
  | some i =>
    let d := i.desc
    let drain := opOf d == 0x41
    let step := if drain then s.drainStep n x i.seq (vArray d) else 0
    match s.vecRefusal n x d with
    | some r => (s.vecRefuse n x i r).advance
    | none =>
      if (s.core n).vec.isSome || !s.turnOk n x (s.core n).turnV || !s.vecMay n x i || !s.firstCome n x 1 i (s.vecMay n) then
        .fault .notEnabled
      else if step = 2 then (s.vecRefuse n x i { code := cSTATE, word := 0, bit := 52 }).advance
      else
        match (if drain then s.vecDeferred n x d else s.vecReadRefusal n d) with
        | some r => (s.vecRefuse n x i r).advance
        | none =>
          if !s.fits n 10 then
            (if s.waitsAlready n x i.seq then .fault .notEnabled else (s.waitEnvelope n x i.seq).done)
          else
            let r := s.inject (pCOR n) 1
            if r.1 then (r.2.coreFault n false).advance else (r.2.vecGate n x i).advance

/-! ## Elementwise operations and reductions (R185 to R194) -/

/-- Flags of VEC.EXC at an element index. -/
abbrev IdxFlags := List (Nat × Nat)

/-- Flags at an index. -/
def atIdx (i : Nat) (fl : Flags) : IdxFlags := fl.map (fun f => (i, f))

/-- Flags that a load raises (R186, R187). -/
def Load.flags (l : Load) : Flags := l.fl ++ flagIf l.nan 3 ++ flagIf l.inf 4 ++ flagIf l.nar 5

/-- The operation of an elementwise opcode. -/
def vecOp (op : Nat) (a b c : F32) : F32 × Flags :=
  match op with
  | 0x30 => faddTz a b
  | 0x31 => fsubTz a b
  | 0x32 => fmulTz a b
  | 0x33 => fmaTz a b c
  | 0x34 => fdivTz a b
  | 0x35 => (fmaxF a b, [])
  | 0x36 => (fminF a b, [])
  | 0x38 => vexp a
  | 0x39 => vrcp a
  | 0x3A => vrsq a
  | 0x3B => vlog a
  | 0x3D => fmulTz a b
  | _ => (a, [])

/-- The combining operation of a reduction. -/
def redOp (op : Nat) (a b : F32) : F32 × Flags :=
  match op with
  | 0x3E => (fmaxF a b, [])
  | 0x3F => (fminF a b, [])
  | _ => faddTz a b

/-- One level of the tree of a chunk: neighbours are combined, with the index of the lower (R193, R194). -/
def redLevel (op : Nat) (l : List (Nat × F32)) : List (Nat × F32) × IdxFlags :=
  match l with
  | a :: b :: r =>
    let v := redOp op a.2 b.2
    let t := redLevel op r
    ((a.1, v.1) :: t.1, atIdx a.1 v.2 ++ t.2)
  | l => (l, [])

/-- The value of a chunk: seven levels. -/
def redChunk (op : Nat) (l : List (Nat × F32)) : List (Nat × F32) × IdxFlags :=
  (List.range 7).foldl (fun (acc : List (Nat × F32) × IdxFlags) _ =>
    let t := redLevel op acc.1
    (t.1, acc.2 ++ t.2)) (l, [])

/-- reduce of R193. -/
def reduce (op : Nat) (vs : List F32) : F32 × IdxFlags :=
  let ivs := (List.range vs.length).zip vs
  (List.range (ceilDiv vs.length 128)).foldl (fun (acc : F32 × IdxFlags) j =>
    let c := redChunk op ((ivs.drop (128 * j)).take 128)
    let t := (c.1.map (·.2)).headD 0
    if j = 0 then (t, acc.2 ++ c.2)
    else
      let v := redOp op acc.1 t
      (v.1, acc.2 ++ c.2 ++ atIdx (128 * j) v.2)) (0, [])

/-- What an instruction writes, and the flags it raises. -/
structure VecOut where
  writes : List (Nat × List Byte)
  flags : IdxFlags := []
  deriving DecidableEq, Repr

/-- Outcomes of a store through quant (R104, R187). -/
def QOut.flags (o : QOut) : Flags :=
  match o with
  | .none => []
  | .sat => [6]
  | .infIn => [4]
  | .nanIn => [3]

/-- Values stored at an operand. -/
def Opnd.vecStore (o : Opnd) (given : Option Nat) (xs : List F32) : VecOut :=
  let m := o.make given xs
  { writes := m.writes, flags := ((List.range m.elems.length).zip m.elems).flatMap (fun e => atIdx e.1 e.2.o.flags) }

/-- The elements of the operand at word `k`. -/
def State.vecLoad (s : State) (n : Nat) (d : Desc) (k : Nat) : List Load × State :=
  match vOpnd d k (vN d) with
  | none => ([], s)
  | some o => s.loadAll n o (pVEC n) 3

/-- The flags of a list of loads, by index. -/
def loadFlags (ls : List Load) : IdxFlags := ((List.range ls.length).zip ls).flatMap (fun e => atIdx e.1 e.2.flags)

/-- NAR_IN of a list of loads, by index. -/
def narFlags (ls : List Load) : IdxFlags := ((List.range ls.length).zip ls).flatMap (fun e => atIdx e.1 (flagIf e.2.nar 5))

/-- The source of a VCONV whose table entry is "same" or "widen" (R99, R100) and whose E8 is not given: source and
destination in the same blocks.  The spec says both this and, of every VCONV, to_fp32 on load and quant on store
(R189); the model takes the table where codes and E8 can be kept (DEDUCED, log entry 50). -/
def vecTakesOver (d : Desc) (o : Opnd) : Option Opnd :=
  if opOf d = 0x37 ∧ (vGiven d).isNone then (vOpnd d 1 (vN d)).filter (fun a => o.takesOver a) else none

/-- Elementwise opcodes and reductions (R188, R193). -/
def State.vecElem (s : State) (n : Nat) (d : Desc) : VecOut × State :=
  let op := opOf d
  let a := s.vecLoad n d 1
  let imm := loadWord (BitVec.ofNat 32 (vImmWord d))
  let b := if vImm d then (List.replicate (vN d) imm, a.2) else if opB op then a.2.vecLoad n d 2 else ([], a.2)
  let c := if op = 0x33 then b.2.vecLoad n d 3 else ([], b.2)
  let fl := loadFlags a.1 ++ (if vImm d then atIdx 0 imm.flags else loadFlags b.1) ++ loadFlags c.1
  let x (ls : List Load) (i : Nat) : F32 := ((ls[i]?).map (·.x)).getD 0
  let rs := (List.range (vN d)).map (fun i => vecOp op (x a.1 i) (x b.1 i) (x c.1 i))
  let efl := ((List.range rs.length).zip rs).flatMap (fun e => atIdx e.1 e.2.2)
  let z := if opReduce op then reduce op (rs.map (·.1)) else (0, [])
  let out := if opReduce op then [z.1] else rs.map (·.1)
  match vOpnd d 4 out.length with
  | none => ({ writes := [] }, c.2)
  | some o =>
    match vecTakesOver d o with
    | some src => ({ writes := (s.carried n src o).writes, flags := narFlags a.1 }, c.2)
    | none =>
      let w := o.vecStore (vGiven d) out
      ({ w with flags := fl ++ efl ++ z.2 ++ w.flags }, c.2)

/-! ## LUTB, VDRAIN, VDICE (R195, R197, R212) -/

/-- The table of an element (R124). -/
def lutTable (cb : Nat → Int) (i : Int) (nar : Bool) : List Byte :=
  (List.range 16).flatMap (fun e => natLe 2 (if nar then 0x8000 else ofSigned 16 (cb e * i)))

/-- LUTB. -/
def State.vecLutb (s : State) (n : Nat) (d : Desc) : VecOut :=
  match vOpnd d 1 (vN d) with
  | none => { writes := [] }
  | some o =>
    let ident := (fmtOf (vFmt d 2)).map (fun f => f.code) == some .u4
    let cb (e : Nat) : Int := if ident then (e : Int) else toSigned 8 (s.storeByte n (fld d.w2 21 0 + e))
    let es := (List.range (vN d)).map (fun i =>
      let v := decodeElem o.f.code (fun _ => 0) (s.rawElem n o 0 i)
      { v with nar := v.nar || s.elemE8 n o 0 i == 255 })
    { writes := [(fld d.w4 21 0, es.flatMap (fun v => lutTable cb v.i v.nar))]
      flags := ((List.range es.length).zip es).flatMap (fun e => atIdx e.1 (flagIf e.2.nar 5)) }

/-- VDRAIN. -/
def State.vecDrain (s : State) (n : Nat) (d : Desc) : VecOut :=
  let a := vArray d
  let t := (s.arr n a).shadow
  let c := s.shadowScale n a
  let es := (List.range (s.vDCount n d)).map (fun e => (e, Tab.get t.a 0 e, t.poison.contains e))
  let nars : IdxFlags := es.flatMap (fun e => atIdx e.1 (flagIf e.2.2 5))
  if vRaw d then { writes := [(fld d.w4 21 0, es.flatMap (fun e => natLe 8 (a64Raw e.2.1 e.2.2).toNat))], flags := nars }
  else
    let vs := es.map (fun e => a64ToFp32 e.2.1 e.2.2 c.1 c.2)
    match vOpnd d 4 es.length with
    | none => { writes := [] }
    | some o =>
      let w := o.vecStore (vGiven d) (vs.map (·.1))
      { w with flags := nars ++ ((List.range vs.length).zip vs).flatMap (fun e => atIdx e.1 (flagIf e.2.2 0)) ++ w.flags }

/-- VDICE: `step` is CFE.STEP as read at release. -/
def State.vecDice (s : State) (n : Nat) (d : Desc) (step : Nat) : VecOut :=
  let a := fld d.w1 21 0
  let k (i : Nat) : BitVec 32 := BitVec.ofNat 32 (s.storeNat n (a + 4 * i) 4)
  let st := if bitAt d.w7 48 then s.storeNat n (a + 16) 8 else step
  let ys := (List.range (vN d)).map (fun i => dice k st (vImmWord d) (fld d.w7 47 0 + i))
  match vOpnd d 4 (vN d) with
  | none => { writes := [] }
  | some o =>
    if vRaw d then { writes := o.writeRaws (ys.map (·.toNat)) }
    else o.vecStore (vGiven d) (ys.map (fun y => (encodeF false (-24) (y.toNat / 256)).1))

/-! ## VOPT (R208) -/

/-- New moments of one element of a block, before quantisation: m1, r1 and the flags. -/
def voptMoments (p : Nat → F32) (m0 r0 g : F32) : F32 × F32 × Flags :=
  let gs := fmulTz g (p 0)
  let a := fmulTz (p 2) gs.1
  let m1 := fmaTz (p 1) m0 a.1
  let v0 := fmulTz r0 r0
  let g2 := fmulTz gs.1 gs.1
  let b := fmulTz (p 4) g2.1
  let v1 := fmaTz (p 3) v0.1 b.1
  let q := vrsq v1.1
  let r := if v1.1.toNat % 2 ^ 31 = 0 then (mkF false 0, []) else (let w := fmulTz v1.1 q.1; (w.1, q.2 ++ w.2))
  (m1.1, r.1, gs.2 ++ a.2 ++ m1.2 ++ v0.2 ++ g2.2 ++ b.2 ++ v1.2 ++ r.2)

/-- The new weight of one element, from its stored moments and the floor. -/
def voptWeight (p : Nat → F32) (w mh rh fl : F32) : F32 × Flags :=
  let a := faddTz rh fl
  let b := fmulTz a.1 (p 6)
  let den := faddTz b.1 (p 7)
  let u := fdivTz mh den.1
  let k := fmaTz (p 8) w u.1
  let l := fmulTz (p 5) k.1
  let r := fsubTz w l.1
  (r.1, a.2 ++ b.2 ++ den.2 ++ u.2 ++ k.2 ++ l.2 ++ r.2)

/-- A block of VOPT: the new weights, the codes and E8 of both moments, and the flags by index; none when the block
is held. -/
def voptBlock (p : Nat → F32) (h : Nat) (hold : Bool) (base : Nat) (w g m0 r0 : List F32) :
    Option (List F32 × (Nat × List QElem) × (Nat × List QElem) × IdxFlags) :=
  let odd (x : F32) : Bool := (decodeF x).k == .inf || (decodeF x).k == .nan
  if hold && (w ++ g ++ m0 ++ r0).any odd then none
  else
    let at_ (l : List F32) (i : Nat) : F32 := l.getD i 0
    let ms := (List.range 32).map (fun i => voptMoments p (at_ m0 i) (at_ r0 i) (at_ g i))
    let mq := quantBlock (ms.map (·.1)) .s8 none
    let rq := quantBlock (ms.map (·.2.1)) .u8 none
    let fl := (encodeF false ((rq.1 : Int) - 127 + h) 1).1
    let q (l : List QElem) (i : Nat) : QElem := l.getD i ⟨0, true, .none⟩
    let ws := (List.range 32).map (fun i =>
      voptWeight p (at_ w i) (toFp32 (q mq.2 i).q (q mq.2 i).nar mq.1).1 (toFp32 (q rq.2 i).q false rq.1).1 fl)
    some (ws.map (·.1), mq, rq,
      ((List.range 32).zip ms).flatMap (fun e => atIdx (base + e.1) e.2.2.2) ++
      ((List.range 32).zip mq.2).flatMap (fun e => atIdx (base + e.1) e.2.o.flags) ++
      ((List.range 32).zip rq.2).flatMap (fun e => atIdx (base + e.1) e.2.o.flags) ++
      ((List.range 32).zip ws).flatMap (fun e => atIdx (base + e.1) e.2.2))

/-- VOPT. -/
def State.vecOpt (s : State) (n : Nat) (d : Desc) : VecOut × State :=
  let w := s.vecLoad n d 1
  let g := w.2.vecLoad n d 2
  let m := g.2.vecLoad n d 3
  let r := m.2.vecLoad n d 4
  let opt := (s.reg (pVEC n) 0x138)
  let blk (l : List Load) (j : Nat) : List F32 := ((l.drop (32 * j)).take 32).map (·.x)
  let one (j : Nat) : VecOut :=
    match voptBlock (s.vParam n d) (fld opt 1 0) (bitAt opt 2) (32 * j) (blk w.1 j) (blk g.1 j) (blk m.1 j) (blk r.1 j) with
    | none => { writes := [] }
    | some b =>
      { writes :=
          [ (fld d.w1 21 0 + 128 * j, b.1.flatMap (fun x => natLe 4 x.toNat)),
            (fld d.w3 21 0 + 32 * j, b.2.1.2.map (fun q => BitVec.ofNat 8 (encodeElem .s8 q.q q.nar))),
            (fld d.w3 43 22 + j, [BitVec.ofNat 8 b.2.1.1]),
            (fld d.w4 21 0 + 32 * j, b.2.2.1.2.map (fun q => BitVec.ofNat 8 (encodeElem .u8 q.q q.nar))),
            (fld d.w4 43 22 + j, [BitVec.ofNat 8 b.2.2.1.1]) ]
        flags := b.2.2.2 }
  let bs := (List.range (vN d / 32)).map one
  ({ writes := bs.flatMap (·.writes)
     flags := loadFlags w.1 ++ loadFlags g.1 ++ loadFlags m.1 ++ loadFlags r.1 ++ bs.flatMap (·.flags) }, r.2)

/-! ## Completion (R198, R199, R202) -/

/-- What the instruction in the engine writes and raises. -/
def State.vecWork (s : State) (n : Nat) (d : Desc) (step : Nat) : VecOut × State :=
  match opOf d with
  | 0x40 => (s.vecLutb n d, s)
  | 0x41 => (s.vecDrain n d, s)
  | 0x42 => s.vecOpt n d
  | 0x43 => (s.vecDice n d step, s)
  | _ => s.vecElem n d

/-- The first source element that an uncorrectable line or entry spoils. -/
def State.vecFirstBad (s : State) (n : Nat) (d : Desc) : Option Nat :=
  let lines := (linesOfAll (vReads d)).filter (fun l => s.storeBad n l)
  let heads := linesOfAll (vHeads d)
  let place (l : Nat) : Option Nat :=
    if heads.contains l then some 0 else ((vLoads d).filterMap (fun o => o.firstIn l)).foldl optMin none
  let b := (lines.filterMap place).foldl optMin none
  if opOf d = 0x41 then (s.arr n (vArray d)).shadow.bad.foldl optMin b else b

/-- Lines that hold anything written at element `e` or later. -/
def State.vecLate (s : State) (n : Nat) (d : Desc) (e : Nat) : List Nat :=
  let a := fld d.w4 21 0
  let cnt := s.vDCount n d
  if opOf d = 0x40 then linesOf (a + 32 * e) (32 * (vN d - e))
  else if opOf d = 0x41 ∧ vRaw d then linesOf (a + 8 * e) (8 * (cnt - e))
  else if opReduce (opOf d) then linesOfAll (vWrites d 1)
  else
    let k := if opOf d = 0x42 then e / 32 * 32 else e
    linesOfAll ((if opOf d = 0x42 then [1, 3, 4] else [4]).flatMap (fun w => match vOpnd d w cnt with
      | none => []
      | some o => o.fromElem k))

/-- The instruction ends at a spoilt source element (R174, R198). -/
def State.vecPoison (s : State) (n x : Nat) (i : Ins) (e : Nat) (w : VecOut) : State :=
  let p := s.somePrefix (writtenLines w.writes) (s.vecLate n i.desc e)
  let s := p.2.writeAll n (writesIn p.1 w.writes)
  (s.vecAbort n x i 0x41).contained

/-- The instruction completes: stores, resident bits, the shadow set, flags, then the signal. -/
def State.vecFinish (s : State) (n x : Nat) (i : Ins) (w : VecOut) : State :=
  let s := s.writeAll n w.writes
  let s := s.setResident n (i.lines ++ writtenLines w.writes) true
  let s := if opOf i.desc = 0x41 then s.emptyShadow n (vArray i.desc) else s
  let s := (((s.dropJob n true).unpin n x i.seq).freeDemand n x i.seq).finishIns n x i
  let s := (s.raiseFlags n x i.pc w.flags).addReg (pVEC n) 0x128 1
  s.signalTally n x i

/-- VEC_COMPLETE (R199). -/
def execVecComplete (core : CoreId) (s : State) : Res :=
  let n := core.val
  match (s.core n).vec with
  | none => .fault .notEnabled
  | some j =>
    let x := j.ctx
    let i := j.ins
    let w := s.vecWork n i.desc j.step
    if s.pinnedByOther n x i.seq (writtenLines w.1.writes) then .fault .notEnabled
    else
      match s.vecFirstBad n i.desc with
      | some e => happens s.live (w.2.vecPoison n x i e w.1)
      | none => happens s.live (w.2.vecFinish n x i w.1)

/-! ## A poisoned line (R133, R174, R198) -/

/-- A DCOPY in the core's DMA engine has still to read a line of the core store, whose poison it will copy. -/
def State.dmaReads (s : State) (n line : Nat) : Bool :=
  (s.core n).dma.any (fun j =>
    let d := j.ins.desc
    let g := s.gaddr d.w1
    opOf d == 0x80 && !j.issued && g.node == s.nodeId &&
      (rangeFrom j.row (dmaRows d - j.row)).any (fun r =>
        match s.place (g.loc + r * fld d.w4 31 0) with
        | .store c off => c == n && (linesOf off (dmaRowBytes d)).contains line
        | _ => false))

/-- The matrix run of a context ends at a spoilt line that it has still to read (R133). -/
def State.lineMx (s spoilt : State) (n x l : Nat) : Option State :=
  (s.mxReading n x l).map (fun f => spoilt.mxPoison n x f.1 f.2.1 f.2.2.1 f.2.2.2)

/-- The quantiser's instruction of a context ends at a spoilt line that it reads (R174). -/
def State.lineQnt (s spoilt : State) (n x l : Nat) : Option State :=
  match (s.core n).qnt with
  | none => none
  | some j =>
    if j.ctx ≠ x ∨ j.sent ∨ !(linesOfAll (s.qntReads n j.ins.desc)).contains l then none
    else
      match spoilt.qntFirstBad n j.ins.desc, qDst j.ins.desc (s.qGeom n j.ins.desc) with
      | some e, some o =>
        let ls := s.qntLoads n j.ins.desc
        some ({ ls.2 with mem := spoilt.mem }.qntPoison n x j.ins o e ls.1)
      | _, _ => none

/-- The vector instruction of a context ends at a spoilt line that it reads (R198). -/
def State.lineVec (s spoilt : State) (n x l : Nat) : Option State :=
  match (s.core n).vec with
  | none => none
  | some j =>
    if j.ctx ≠ x ∨ !(linesOfAll (vReads j.ins.desc)).contains l then none
    else
      let w := s.vecWork n j.ins.desc j.step
      (spoilt.vecFirstBad n j.ins.desc).map (fun e => { w.2 with mem := spoilt.mem }.vecPoison n x j.ins e w.1)

/-- What a released instruction of a context does at a spoilt line that it reads: the matrix run first, then the
quantiser's, then the vector instruction. -/
def State.lineIn (s spoilt : State) (n x l : Nat) : Option State :=
  ((s.lineMx spoilt n x l).or (s.lineQnt spoilt n x l)).or (s.lineVec spoilt n x l)

/-- POISONED_LINE: an uncorrectable error in a line of the core store. A released run or instruction that reads it ends,
one of the context named first, else one of the other context; when no released instruction reads it, both contexts fault
(R130), with the record that R314 gives the issue unit. -/
def execPoisonedLine (core : CoreId) (ctx : CtxId) (line : Fin 65536) (s : State) : Res :=
  let n := core.val
  let x := ctx.val
  let l := line.val
  let spoilt : State := { s with mem := s.mem.setPoison (storeAddr n 0 / 64 + l) true }
  match (s.lineIn spoilt n x l).or (s.lineIn spoilt n (1 - x) l) with
  | some t => happens s.live t
  | none =>
    happens s.live (if s.dmaReads n l then spoilt
      else (spoilt.faultBoth n { unit := 8, cls := 0x40, code := 0x40, pc := s.ctxPc n x }).contained)

end Sys2Proof.Machine
end

