-- ==== Sys2Proof/Machine/Power.lean ====
section
/-! DEFINITION. Power stops, voltages, ramps and envelopes, thermal sensors, pace windows and power lending (R252, R363,
R364, R429 to R451, R461, R463, R515). -/

namespace Sys2Proof.Machine

/-! ## Power stop (R285, R444 to R446, R515) -/

/-- The matrix run in flight of a context ends: it counts as ended, with the steps that it has performed; how many there are
beyond its loads where they are over is open (R133, R137). -/
def State.cutRun (s : State) (n x : Nat) : State :=
  match s.mxFly n x with
  | none => s
  | some (_, m) =>
    let d := s.draw
    let all := m.passes * m.rows
    let k := if (s.ctx n x).loaded = [] then Config.freeNat d.1 % (m.load + all + 1) else m.load + Config.freeNat d.1 % (all + 1)
    m.arrays.foldl (fun (s : State) (a : Nat) =>
      let s := ((s.addReg (pMXA n a) 0x108 1).addReg (pMXA n a) 0x110 (min k m.load)).addReg (pMXA n a) 0x118 (k - m.load)
      s.setArr n a { s.arr n a with injNar := false }) d.2

/-- Collectives of programs end: one that carries the verdict leaves the step's reduction incomplete (R220, R445). -/
def State.cutColls (s : State) : State :=
  let mine (j : CollJob) : Bool := j.by_.isSome
  let lost := s.coll.queue.map (·.2) ++ s.coll.run.map (fun r => r.2.job)
  let breaks := lost.any (fun j => mine j && j.last && s.step.carried.contains j.axis && !s.step.axesDone.contains j.axis)
  { s with
    coll := { s.coll with
      queue := s.coll.queue.filter (fun j => !mine j.2)
      run := s.coll.run.filter (fun r => !mine r.2.job)
      dead := s.coll.dead ++ (s.coll.run.filter (fun r => mine r.2.job)).map (fun r => (r.1 / 3, r.1 % 3, r.2.job.id)) }
    step := { s.step with broken := s.step.broken || breaks } }

/-- Work in flight ends without writing: runs, vector, quantiser and DMA instructions, collectives (R445 step 2). -/
def State.cutWork (s : State) : State :=
  let cut (c : Ctx) : Ctx := { c with
    fly := c.fly.filter (fun i => i.cls == 4)
    loaded := [] }
  let s := (allCtxs.foldl (fun (s : State) (c : Nat) => s.cutRun (c / 2) (c % 2)) s).cutColls
  { s with
    cores := s.cores.map (fun e =>
      (e.1, { e.2 with
        c0 := cut e.2.c0
        c1 := cut e.2.c1
        pins := []
        qnt := none
        vec := none
        dma := [] }))
    link := { s.link with reqs := s.link.reqs.filter (fun r => r.type == 0x04) }
    pwr := { s.pwr with islands := s.pwr.islands.map (fun e =>
      (e.1, { e.2 with
        released := []
        waiting := [] })) } }

/-- Every open output tile of the package is aborted (R117, R285). The stop is no refusal of an instruction and raises no ABORT on
the arrays' pages (R161, log 64). -/
def State.abortAllTiles (s : State) : State :=
  s.arrs.foldl (fun (s : State) (e : Nat × Arr) => if s.liveState (e.1 / 4) (e.1 % 4) = 0 then s else s.abortTile (e.1 / 4) (e.1 % 4)) s

/-- Every open transaction of the package is doomed by the stop, and RUNNING and PREEMPTED contexts fault. -/
def State.faultAll (s : State) : State :=
  let s := s.txn.txns.foldl (fun (s : State) (t : Txn) =>
    match t.members.head? with
    | none => s
    | some m => s.txnCause t.id 6 0x40 0x31 m.core m.ctx) s
  allCtxs.foldl (fun (s : State) (c : Nat) =>
    let n := c / 2
    let x := c % 2
    if s.ctxState n x = 1 ∨ s.ctxState n x = 4 then
      s.faultCtx n x { unit := 8, cls := 0x31, code := 0x40, pc := s.ctxPc n x }
    else s) s

/-- The job of a stopped package faults, and the CFE contributes ABORT (R285, R399). -/
def State.faultJob (s : State) : State :=
  if s.jobUnder = 2 ∨ s.jobUnder = 3 ∨ s.jobUnder = 6 then
    let s := s.verdictBit 1
    if s.jobUnder = 6 then s else s.setJobUnder 6
  else s

/-- Envelopes ramp down to the floor demand, or to 0 A with the HBM and I/O islands when PWRGOOD fell (R445 step 3). -/
def State.stopRamps (s : State) (off : Bool) : State :=
  let s := (List.range 32).foldl (fun (s : State) (i : Nat) => s.rampDown i (if off then 0 else s.floorDemand i)) s
  if off then (rangeFrom 32 4).foldl (fun (s : State) (i : Nat) => s.rampDown i 0) s else s

/-- The cause whose restoration counts: a stop of cause 4 or 5 lasts until a power-on reset (R446). -/
def lasting (old : Option Nat) (cause : Nat) : Option Nat :=
  if cause = 5 then some 5
  else
    match old with
    | some 5 => some 5
    | some 4 => some 4
    | _ => some cause

/-- A power stop (R445): `island` is recorded for IVR_OC.  The runs and tiles that it ends raise no ABORT on the arrays' pages:
R161 ties the event to a refusal or a failed gate (DESIGN CHOICE, log entry 64). -/
def State.orderStop (s : State) (cause island : Nat) : State :=
  let v : Nat := 2 ^ 63 + island * 256 + cause
  let s := s.setReg (pPWR 32) 0x158 (BitVec.ofNat 64 v)
  let s := { s with pwr := { s.pwr with
    stopped := lasting s.pwr.stopped cause
    present := if cause ≤ 3 then insSet s.pwr.present cause else s.pwr.present } }
  let s := (s.cutWork.stopRamps (cause == 5)).abortAllTiles.faultAll.faultJob
  (s.raise (pPWR 32) 4).alert

/-- VIN_UV (R444). -/
def execVinUv (s : State) : Res := happens (s.board.pwrgood && !s.pwr.present.contains 1) (s.orderStop 1 0)

/-- VIN_OV (R444). -/
def execVinOv (s : State) : Res := happens (s.board.pwrgood && !s.pwr.present.contains 2) (s.orderStop 2 0)

/-- Overcurrent of an island's IVR. -/
def State.overcurrent (s : State) (i : Nat) : State := (s.orderStop 3 i).raise (pPWR i) 3

/-- IVR_OC (R444). -/
def execIvrOc (island : IslandId) (s : State) : Res := happens s.board.pwrgood (s.overcurrent island.val)

/-- PWRGOOD_FALL (R445, R439): the bleed engages. -/
def execPwrgoodFall (s : State) : Res :=
  let t := s.orderStop 5 0
  happens s.board.pwrgood { t with
    board := { t.board with pwrgood := false }
    pwr := { t.pwr with bleed := true } }

/-- VSTBY_LOSS (R515): a fall of PWRGOOD; without VSTBY the bleed is not guaranteed. -/
def execVstbyLoss (s : State) : Res :=
  let t := if s.board.pwrgood then s.orderStop 5 0 else s
  let d := t.draw
  let t := d.2
  happens s.board.vstby { t with
    board := { t.board with
      pwrgood := false
      vstby := false }
    pwr := { t.pwr with bleed := Config.freeBool d.1 } }

/-- VSTBY_GOOD (R510). -/
def execVstbyGood (s : State) : Res := occurs (!s.board.vstby) { s with board := { s.board with vstby := true } }

/-- No cause of R509 but a power stop holds ALERT_N low. -/
def State.alertFree (s : State) : Bool := !bitAt (s.reg (pRAS 0) 0x108) 63 && s.bootFail == 0 && !s.boot.recovery

/-- POWER_STOP_CLEAR (R446, R509): the cause has been absent for 1 ms; releases go on. -/
def execPowerStopClear (s : State) : Res :=
  let t := { s with
    pwr := { s.pwr with stopped := none }
    board := { s.board with alert := s.board.alert && !s.alertFree } }
  happens (s.board.pwrgood && s.pwr.present == [] && (s.pwr.stopped == some 1 || s.pwr.stopped == some 2 || s.pwr.stopped == some 3)) t

/-! ## Ramps (R441 to R443) -/

/-- Islands whose ramp holds a token. -/
def State.ramping (s : State) : List Nat :=
  (List.range 36).filter (fun i => (s.island i).target.isSome && !s.pwr.tokens.contains i)

/-- PWR.RAMPS follows the ramps in progress: 4 A/µs for a cluster island, 2 A/µs for another. -/
def State.rampRegs (s : State) : State :=
  let c := (s.ramping.filter (fun i => decide (i < 32))).length
  let h := s.ramping.length - c
  let s := ((s.setRf (pPWR 32) 0x160 3 0 c).setRf (pPWR 32) 0x160 9 8 h).setRf (pPWR 32) 0x160 7 4 (max c (s.rf (pPWR 32) 0x160 7 4))
  s.setRf (pPWR 32) 0x160 31 16 (max (40 * c + 20 * h) (s.rf (pPWR 32) 0x160 31 16))

/-- A token is free for an island: eight for cluster islands, two for the others. -/
def State.tokenFree (s : State) (i : Nat) : Bool :=
  if i < 32 then decide ((s.ramping.filter (fun j => decide (j < 32))).length < 8)
  else decide ((s.ramping.filter (fun j => decide (32 ≤ j))).length < 2)

/-- The first island of its kind in the order of requests. -/
def State.firstToken (s : State) (i : Nat) : Bool :=
  s.pwr.tokens.find? (fun j => decide (j < 32) == decide (i < 32)) == some i

/-- RAMP_TOKEN_GRANT (R441). -/
def execRampTokenGrant (island : IslandId) (s : State) : Res :=
  let i := island.val
  let t : State := { s with pwr := { s.pwr with tokens := s.pwr.tokens.filter (fun j => j != i) } }
  occurs (s.firstToken i && s.tokenFree i) t.rampRegs

/-- A ramp reaches its target and returns its token. -/
def State.rampDone (s : State) (i target : Nat) : State :=
  ((s.setRf (pPWR i) 0x110 15 0 target).setIsland i { s.island i with target := none }).rampRegs

/-- RAMP_END (R441). -/
def execRampEnd (island : IslandId) (s : State) : Res :=
  let i := island.val
  match (s.island i).target with
  | none => .fault .notEnabled
  | some v => happens (s.ramping.contains i) (s.rampDone i v)

/-- ENV_HOLD_EXPIRY (R442). -/
def execEnvHoldExpiry (island : Fin 32) (s : State) : Res :=
  let i := island.val
  occurs (s.live && s.pwr.stopped.isNone && (s.island i).target.isNone &&
      decide (s.committed i < s.envelope i))
    (s.requestRamp i (s.committed i))

/-! ## The 50 µs window (R434, R435, R448, R449, R517) -/

/-- A cluster island's voltage is under the power manager: at full service, and of the islands of D0 other than C0's
in wicket service. -/
def State.managed (s : State) (i : Nat) : Bool := decide (3 ≤ s.stage) || (s.stage == 2 && decide (1 ≤ i ∧ i < 8))

/-- The VID of a cluster island at the end of a window. -/
def State.windowVid (s : State) (i : Nat) : State :=
  if !s.managed i then s
  else
    let lev := s.rf (pPWR i) 0x108 21 16
    let v := s.islandVid i lev
    let capped := decide (v < s.vidWanted i lev)
    ((s.setVid i v).setRf (pPWR i) 0x108 32 32 (b2n capped)).raiseIf capped (pPWR i) 0

/-- Injected overcurrent of an island, once a window. -/
def State.windowOc (s : State) (i : Nat) : State :=
  let r := s.inject (pPWR i) 1
  if r.1 then r.2.overcurrent i else r.2

/-- The end of a 50 µs window. -/
def State.window (s : State) (mv deciAmp watt joule : Nat) : State :=
  let s := s.setReg (pPWR 32) 0x150 (BitVec.ofNat 64 (watt * 2 ^ 32 + deciAmp * 65536 + mv))
  let s := s.addReg (pPWR 32) 0x168 joule
  let s := s.raiseIf (decide (mv < 11400 ∨ 12600 < mv)) (pPWR 32) 5
  let still := s.pwr.present.filter (fun c => (c == 1 && decide (mv < 10800)) || (c == 2 && decide (13800 < mv)))
  let s := { s with pwr := { s.pwr with present := still } }
  let s := (List.range 32).foldl (fun (s : State) (i : Nat) => s.windowVid i) s
  let s := (List.range 36).foldl (fun (s : State) (i : Nat) => s.windowOc i) s
  let r := s.inject (pPWR 32) 2
  if r.1 then r.2.orderStop 1 0 else r.2

/-- POWER_WINDOW (R434). -/
def execPowerWindow (mv deciAmp watt joule : Nat) (s : State) : Res :=
  wellFormed (decide (mv < 65536 ∧ deciAmp < 65536 ∧ watt < 65536))
    (happens (s.board.pwrgood && decide (1 ≤ s.stage)) (s.window mv deciAmp watt joule))

/-! ## Thermal sensors (R436, R444, R450, R451, R461) -/

/-- 115.0 °C in 1/16 °C. -/
def tripTemp : Int := 1840

/-- A temperature as a field of 16 bits. -/
def tempField (t : Int) : Nat := ofSigned 16 t

/-- The sample as an armed injection makes it (R461). -/
def State.injectThm (s : State) (die : Nat) (l : List Sensor) : List Sensor × State :=
  let pt := s.rf (pTHM die) 0x048 15 8
  let r := s.inject (pTHM die) pt
  if !r.1 then (l, r.2)
  else
    let v : Sensor :=
      if pt < 0x80 then { temp := 16 * (s.rf (pTHM die) 0x100 7 0 : Nat) } else if pt < 0xC0 then { temp := tripTemp } else { temp := 0, failed := true }
    (l.set (pt % 64) v, r.2)

/-- The hottest valid sensor of a sample and its number. -/
def hottest (l : List Sensor) : Option (Int × Nat) :=
  ((List.range l.length).zip l).foldl (fun (b : Option (Int × Nat)) (e : Nat × Sensor) =>
    if e.2.failed then b
    else
      match b with
      | none => some (e.2.temp, e.1)
      | some m => if m.1 < e.2.temp then some (e.2.temp, e.1) else b) none

/-- Temperature of a cluster: its six sensors and the shared ones, a failed one counting as the hottest valid sensor. -/
def clusterTemp (l : List Sensor) (hot : Int) (c : Nat) : Int :=
  let ts := ((rangeFrom (6 * c) 6) ++ rangeFrom 48 16).map (fun i =>
    match l[i]? with
    | none => hot
    | some k => if k.failed then hot else k.temp)
  ts.foldl max (ts.headD 0)

/-- A cluster's thermal cut moves by 1. -/
def State.moveCut (s : State) (i : Nat) (t : Int) : State :=
  let die := i / 8
  let on : Int := 16 * (s.rf (pTHM die) 0x100 7 0 : Nat)
  let off : Int := on - 16 * (s.rf (pTHM die) 0x100 11 8 : Nat)
  let cut := s.rf (pPWR i) 0x108 29 24
  if on ≤ t then
    if 50 ≤ cut then s else (s.setRf (pPWR i) 0x108 29 24 (cut + 1)).raiseIf (cut == 0) (pPWR i) 1
  else if t < off then s.setRf (pPWR i) 0x108 29 24 (cut - 1)
  else s

/-- A cluster of a die has a non-zero cut. -/
def State.dieCut (s : State) (die : Nat) : Bool := (rangeFrom (8 * die) 8).any (fun i => s.rf (pPWR i) 0x108 29 24 != 0)

/-- THM.MAX and THM.PEAK follow a sample. -/
def State.thmMax (s : State) (die : Nat) (m : Int × Nat) : State :=
  let v : Nat := m.2 * 65536 + tempField m.1
  let s := s.setReg (pTHM die) 0x108 (BitVec.ofNat 64 v)
  if s.thm.peaked.contains die ∧ m.1 ≤ toSigned 16 (s.rf (pTHM die) 0x120 15 0) then s
  else ({ s with thm := { s.thm with peaked := insSet s.thm.peaked die } } : State).setReg (pTHM die) 0x120 (BitVec.ofNat 64 v)

/-- A sample of the sensors of a die. -/
def State.sample (s : State) (die : Nat) (given : List Sensor) : State :=
  let r := s.injectThm die given
  let l := r.1
  let s := r.2
  let before := Tab.get s.thm.samples [] die
  let was := s.dieCut die
  let newFail := ((List.range 64).zip l).any (fun e => e.2.failed && !((before[e.1]?).elim false (fun (k : Sensor) => k.failed)))
  let above := ((List.range 64).zip l).filter (fun e => !e.2.failed && decide (tripTemp ≤ e.2.temp)) |>.map (fun e => e.1)
  let trip := above.any (fun i => (Tab.get s.thm.hot [] die).contains i)
  let s := { s with thm := { s.thm with
    samples := Tab.set s.thm.samples [] die l
    hot := Tab.set s.thm.hot [] die above } }
  let s := (match hottest l with
    | none => s
    | some m => (List.range 8).foldl (fun (s : State) (c : Nat) => s.moveCut (8 * die + c) (clusterTemp l m.1 c)) (s.thmMax die m))
  let now := s.dieCut die
  let s := if now then s.addReg (pTHM die) 0x128 20 else s
  let s := s.raiseIf (now && !was) (pTHM die) 0
  let s := s.raiseIf (was && !now) (pTHM die) 1
  let s := s.raiseIf newFail (pTHM die) 3
  if trip && s.pwr.stopped != some 4 && s.pwr.stopped != some 5 then
    let s := (s.raise (pTHM die) 2).orderStop 4 0
    { s with board := { s.board with thermtrip := true } }
  else s

/-- THERMAL_SAMPLE (R436). -/
def execThermalSample (die : DieId) (sensors : List Sensor) (s : State) : Res :=
  wellFormed (sensors.length == 64 && sensors.all (fun k => decide (-32768 ≤ k.temp ∧ k.temp ≤ 32767)))
    (happens (s.board.pwrgood && decide (1 ≤ s.stage)) (s.sample die.val sensors))

/-! ## Pace (R363, R364, R437, R463) -/

/-- A number put into a rising list. -/
def insOrd (l : List Nat) (n : Nat) : List Nat :=
  match l with
  | [] => [n]
  | x :: t => if n ≤ x then n :: x :: t else x :: insOrd t n

/-- The package median: the 16th smallest of the 32 values. -/
def paceMedian (l : List Nat) : Nat := (l.foldl insOrd []).getD 15 0

/-- A lagging cluster is levelled, or is at its voltage limit and LAGGARD is raised. -/
def State.levelUp (s : State) (i median v : Nat) : State :=
  let lev := s.rf (pPWR i) 0x108 21 16
  let s := s.setIsland i { s.island i with calm := 0 }
  if lev < 50 ∧ s.islandVid i lev < s.islandVid i (lev + 1) then s.setRf (pPWR i) 0x108 21 16 (lev + 1)
  else
    let page := pCOL (i / 8)
    let w : Nat := 2 ^ 63 + (1000 * (median - v) / median) * 65536 + i % 8
    let s := s.raise (pPWR i) 2
    let s := if bitAt (s.reg page 0x030) 2 then s else s.setReg page 0x118 (BitVec.ofNat 64 w)
    s.raise page 2

/-- A cluster that does not lag; after 20 such windows its raise falls by 1. -/
def State.levelDown (s : State) (i : Nat) : State :=
  let lev := s.rf (pPWR i) 0x108 21 16
  let k := s.island i
  if 19 ≤ k.calm ∧ lev ≠ 0 then (s.setIsland i { k with calm := 0 }).setRf (pPWR i) 0x108 21 16 (lev - 1)
  else s.setIsland i { k with calm := min 19 (k.calm + 1) }

/-- A millisecond of availability: T leaves out power stops of causes 1, 2 and 5, D counts those of 3 and 4 (R463). -/
def State.countMs (s : State) : State :=
  let stop := s.pwr.stopped
  let out := stop == some 1 || stop == some 2 || stop == some 5
  { s with boot := { s.boot with
    availMs := s.boot.availMs + (if out then 0 else 1)
    downMs := s.boot.downMs + (if stop == some 3 || stop == some 4 then 1 else 0)
    retryMs := if s.boot.retryMs = 0 || out then s.boot.retryMs else s.boot.retryMs + 1 } }

/-- A pace window ends. -/
def State.pace (s : State) (l : List Nat) : State :=
  let m := paceMedian l
  let es := (List.range 32).zip l
  let s := es.foldl (fun (s : State) (e : Nat × Nat) => s.setReg (pCOL (e.1 / 8)) (0x140 + 8 * (e.1 % 8)) (BitVec.ofNat 64 e.2)) s
  let s := (List.range 4).foldl (fun (s : State) (d : Nat) => s.setReg (pCOL d) 0x120 (BitVec.ofNat 64 m)) s
  let s := es.foldl (fun (s : State) (e : Nat × Nat) => if 100 * e.2 < 92 * m then s.levelUp e.1 m e.2 else s.levelDown e.1) s
  s.countMs

/-- PACE_WINDOW (R363). -/
def execPaceWindow (steps : List (BitVec 32)) (s : State) : Res :=
  wellFormed (steps.length == 32) (happens (s.live && s.board.pwrgood && decide (3 ≤ s.stage)) (s.pace (steps.map (fun v => v.toNat))))

/-! ## Lending (R252, R253, R433, R443) -/

/-- Nothing but its engine keeps the oldest instruction of a class queue of the context from its release, or its refusal
(R118). -/
def State.releasable (s : State) (n x : Nat) : Bool :=
  (match s.ready n x 0 with
  | none => false
  | some i =>
    (s.mxRefusal n x i.desc).isSome || (match mxOf i.desc with
      | none => false
      | some m => (s.mxWait n x m).1 == 0)) ||
  (match s.ready n x 1 with
  | none => false
  | some i => (s.vecRefusal n x i.desc).isSome || s.vecMay n x i) ||
  (match s.ready n x 2 with
  | none => false
  | some i => (s.qntRefusal n x i.desc).isSome || s.qntMay n x i) ||
  (s.dmaNext n x).isSome

/-- A context sleeps: a wait is pending and nothing of it is released or releasable (R252). -/
def State.sleeps (s : State) (n x : Nat) : Bool :=
  let c := s.ctx n x
  s.ctxState n x == 1 &&
    (match c.wait with
    | none => false
    | some w => w.isWait) && c.fly.all (fun i => i.cls == 4) && !s.releasable n x

/-- Every context of every enabled core of an island sleeps. -/
def State.rests (s : State) (i : Nat) : Bool :=
  let die := i / 8
  let cl := i % 8
  (rangeFrom (s.clusterFirst die cl) (s.clusterCores die cl)).all (fun n => s.sleeps n 0 && (!s.leaves n || s.sleeps n 1))

/-- LEND_OFFER (R252, R443): the island gives up its ceiling down to its floor demand and ramps down to it. -/
def execLendOffer (island : Fin 32) (s : State) : Res :=
  let i := island.val
  let page := pSYN (144 + i / 8)
  let l := s.island i
  occurs (s.live && s.pwr.stopped.isNone && s.enabled page && s.rf page 0x180 1 0 == 1 && !l.lends &&
      decide (s.floorDemand i < s.capCeiling i) && s.rests i)
    ((s.setIsland i { l with lends := true }).requestRamp i (s.floorDemand i))

end Sys2Proof.Machine
end

