-- ==== Sys2Proof/Machine/Ras.lean ====
section
/-! DEFINITION. Detectors, watchdogs, the spare record, freezes and resumes (R456, R457, R462, R465 to R469, R473, R474). -/

namespace Sys2Proof.Machine

/-! ## Detectors (R454, R456, R457, R517) -/

/-- A detector of a RAS page fires: whether an armed injection made it fire.  Its occurrences are instants of wall-clock time,
which no command carries: a one-shot injection strikes at the first, so that it is what fires; whether the event falls on a
PERIOD-th one is open (R459, R517, log 65). -/
def State.injectTimed (s : State) (page pt : Nat) : Bool × State :=
  if !s.armed page pt then (false, s)
  else
    let once := s.rf page 0x048 1 0 == 1
    let d := s.draw
    let t := if once then s else d.2
    if once || Config.freeBool d.1 then
      let t := t.setRf page 0x050 47 16 (t.rf page 0x050 47 16 + 1)
      (true, if once then t.setRf page 0x050 0 0 0 else t)
    else (false, t)

/-- A fatal error of a fabric unit of a die; an injected one records unit 0. -/
def State.fabricFatal (s : State) (detector die unit : Nat) : State :=
  let r := s.injectTimed (pRAS (1 + die)) detector
  let unit := if r.1 then 0 else unit
  let s := if detector = 1 ∨ detector = 2 then r.2.hsCapture die unit 0xFF (detector == 2) else r.2
  s.fatal detector die unit r.1

/-- HANDSHAKE_TIMEOUT (R456): inside a core both contexts fault; elsewhere it is fatal. -/
def execHandshakeTimeout (u : HsUnit) (s : State) : Res :=
  match u with
  | .core n => happens (s.live && s.coreServed n.val) (s.coreFault n.val false)
  | .fabric die cl => happens (s.live && decide (2 ≤ s.stage)) (s.fabricFatal 1 die.val cl.val)

/-- ISSUE_PARITY (R456). -/
def execIssueParity (core : CoreId) (s : State) : Res :=
  happens (s.live && s.coreServed core.val) (s.coreFault core.val true)

/-- FABRIC_PARITY (R454). -/
def execFabricParity (die : DieId) (cluster : Fin 8) (s : State) : Res :=
  happens (s.frozen != 2 && decide (2 ≤ s.stage)) (s.fabricFatal 2 die.val cluster.val)

/-- The die at an end of a UCIe link: links 0 to 3 join D0 and D1, D2 and D3, D0 and D2, D1 and D3. -/
def ucieDie (link : Nat) (far : Bool) : Nat :=
  match link with
  | 0 => if far then 1 else 0
  | 1 => if far then 3 else 2
  | 2 => if far then 2 else 0
  | _ => if far then 3 else 1

/-- UCIE_RETRY_EXHAUSTED (R454), detected at the end of the link with the lower-numbered die or at the far one. -/
def execUcieRetryExhausted (side : UcieEnd) (s : State) : Res :=
  happens (s.frozen != 2 && decide (3 ≤ s.stage)) (s.fabricFatal 3 (ucieDie side.link.val side.far) side.link.val)

/-- CROSSING_OVERFLOW (R454): of a crossing that is aligned. -/
def execCrossingOverflow (die : DieId) (xing : XingId) (s : State) : Res :=
  happens (s.frozen != 2 && s.boot.aligned.contains (13 * die.val + xing.val)) (s.fabricFatal 4 die.val xing.val)

/-- SEQUENCER_WATCHDOG (R457, R491): fatal; a sequencer image in TRIAL reverts. -/
def execSequencerWatchdog (s : State) : Res :=
  let r := s.injectTimed (pRAS 0) 1
  let t := r.2.revertKind 2
  let t := if r.2.sec.seqr.trial then { t with sec := { t.sec with
      seqRun := t.runOf 2 t.sec.seqr.active
      seqSwitch := false } }
    else t
  happens (s.live && decide (1 ≤ s.stage)) (t.fatal 5 0 0 r.1)

/-- MSC_WDOG (R457): the MSC restarts its firmware; cores, CFE and jobs run on. -/
def execMscWdog (s : State) : Res :=
  let r := s.injectTimed (pRAS 0) 2
  happens (s.board.vstby && s.boot.mscUp && decide (1 ≤ s.stage)) ((r.2.restartMsc 0).raise (pRAS 0) 5)

/-- FATAL_HOLD_EXPIRY (R469). -/
def execFatalHoldExpiry (s : State) : Res :=
  occurs (s.frozen == 2 && s.shut.session.isNone && s.rf (pRAS 0) 0x100 47 32 != 0) (s.warmReset 3)

/-- A write of RAS.RETIRE_CORE with GO = 1. -/
def State.retireCoreWrite (s : State) (n : Nat) : Nat × State :=
  if 143 < n then (cRANGE, s) else (cOK, s.addSpareSlot (s.slotOf n))

/-- RETIRE_CORE (R462, R475). -/
def execRetireCore (core : Byte) (src : Src) (s : State) : Res := s.serveRow (pRAS 0) 0x138 src (s.retireCoreWrite core.toNat)

/-! ## Freezes (R465 to R468) -/

/-- SHUTTER_N (R465): a trigger when SHT is enabled and CFG.PIN_IN is 1. -/
def execShutterN (s : State) : Res :=
  (if s.enabled pSHT && bitAt (s.reg pSHT 0x100) 4 && s.live then s.freezeHere 1 1 0 else s).done

/-- A write of SHT.FREEZE with GO = 1. -/
def State.freezeWrite (s : State) : Nat × State :=
  if !s.enabled pSHT then (cSTATE, s)
  else if s.live then (cOK, s.freezeHere 1 2 (s.rf pSHT 0x100 1 0))
  else (cOK, s)

/-- FREEZE (R465). -/
def execFreeze (src : Src) (s : State) : Res := s.serveRow pSHT 0x108 src s.freezeWrite

/-- The symbol names the freeze in force. -/
def State.sameFreeze (s : State) (origin seq : Nat) : Bool :=
  !s.live && s.rf pSHT 0x110 46 32 == origin && s.rf pSHT 0x110 31 16 == seq

/-- A received FRZ symbol: of scope slice it is for the nodes of the origin's slice; a fatal freeze stands. -/
def State.takeFrz (s : State) (p scope kind origin seq : Nat) : State :=
  if scope = 0 ∨ s.sameFreeze origin seq ∨ (scope = 1 ∧ !s.inSlice origin) then s
  else if s.frozen = 2 then (s.symbolPorts scope (some p)).foldl (fun (s : State) (q : Nat) => s.emit (.frz q scope kind origin seq)) s
  else s.freeze 1 5 scope origin seq kind (some p)

/-- FRZ (R467). -/
def execFrz (port : PortId) (scope : Fin 3) (kind : Fin 3) (origin : BitVec 15) (seq : BitVec 16) (s : State) : Res :=
  occurs (s.linkState port.val == 2) (s.takeFrz port.val scope.val kind.val origin.toNat seq.toNat)

/-! ## Resume (R473) -/

/-- The node goes on (R473 steps 2 to 6); `inPort` is the port an RES symbol came in on. -/
def State.resumeNow (s : State) (inPort : Option Nat) : State :=
  let scope := s.rf pSHT 0x110 9 8
  let origin := s.rf pSHT 0x110 46 32
  let seq := s.rf pSHT 0x110 31 16
  let was := s.rf pCFE 0x100 6 4
  let s := if scope = 0 then s else
    (s.symbolPorts scope inPort).foldl (fun (s : State) (p : Nat) => s.emit (.res p origin seq)) s
  let s := { s with hbm := { s.hbm with stk := s.hbm.stk.map (fun (e : Nat × Stack) => (e.1, { e.2 with awake := false })) } }
  let s := s.setRf pSHT 0x110 1 0 0
  let s := (List.range 32).foldl (fun (s : State) (i : Nat) =>
    if s.envelopeGoal i < s.committed i then s.requestRamp i (s.committed i) else s) s
  let s := (s.setRf pCFE 0x100 6 4 0).setJob was
  let s := if was = 2 then s.voidSeq 37 else s
  ((s.addReg pSHT 0x130 1).raise pSHT 1).flushRecs

/-- A resume is asked for: refused while the pin stays low and is a trigger. -/
def State.resume (s : State) (pinLow : Bool) (inPort : Option Nat) : Nat × State :=
  let s := { s with board := { s.board with shutter := false } }
  if pinLow && bitAt (s.reg pSHT 0x100) 4 then (cSTATE, s) else (cOK, s.resumeNow inPort)

/-- RES (R473): of the freeze in force, when it is a debug freeze. -/
def execRes (port : PortId) (origin : BitVec 15) (seq : BitVec 16) (pinLow : Bool) (s : State) : Res :=
  happens (s.linkState port.val == 2)
    (if s.frozen == 1 && s.sameFreeze origin.toNat seq.toNat then (s.resume pinLow (some port.val)).2 else s)

end Sys2Proof.Machine
end

