-- ==== Sys2Proof/Machine/Security.lean ====
section
/-! DEFINITION. Staging, activation, confirmation and revocation of signed objects, and attestation (R485 to R494). -/

namespace Sys2Proof.Machine

/-! ## Staging (R489, R494, R496) -/

/-- The slot or buffer that a STAGE of a kind writes. -/
def State.target (s : State) (kind : Nat) : Nat := if kind ≤ 3 then 1 - (s.slotsOf kind).active else 0

/-- What a value of SEC.STAGE asks for. -/
def stageOf (v : Word) : StageJob :=
  { kind := fld v 3 0, chunk := fld v 31 16, bytes := fld v 43 32, go := bitAt v 8, verify := bitAt v 9 }

/-- A reserved KIND, or BYTES outside its range (R496). -/
def StageJob.bad (j : StageJob) : Bool := j.kind == 0 || decide (5 < j.kind ∨ j.bytes < 8 ∨ 2048 < j.bytes ∨ j.bytes % 8 ≠ 0)

/-- A write of SEC.STAGE. -/
def State.stageWrite (s : State) (j : StageJob) : Nat × State :=
  if j.bad then (cRANGE, s)
  else if s.sec.busy.isSome ∨ (j.kind ≤ 3 ∧ (s.slotsOf j.kind).trial) then (cSTATE, s)
  else (cOK, ({ s with sec := { s.sec with busy := some j } } : State).setReg pSEC 0x118 (BitVec.ofNat 64 (j.kind * 16 + 1)))

/-- SEC_STAGE (R489): GO = 1, VERIFY = 0. -/
def execSecStage (kind : Fin 16) (chunk : BitVec 16) (bytes : BitVec 12) (src : Src) (s : State) : Res :=
  s.serveRow pSEC 0x110 src
    (s.stageWrite { kind := kind.val, chunk := chunk.toNat, bytes := bytes.toNat, go := true, verify := false })

/-- SEC_VERIFY (R480, R489): VERIFY = 1, with or without a chunk. -/
def execSecVerify (kind : Fin 16) (chunk : BitVec 16) (bytes : BitVec 12) (go : Bool) (src : Src) (s : State) : Res :=
  s.serveRow pSEC 0x110 src
    (s.stageWrite { kind := kind.val, chunk := chunk.toNat, bytes := bytes.toNat, go := go, verify := true })

/-- Bytes of SEC.WINDOW. -/
def State.windowBytes (s : State) (n : Nat) : List Byte :=
  ((List.range 256).flatMap (fun i => natLe 8 (s.reg pSEC (0x800 + 8 * i)).toNat)).take n

/-- VALID of a target is set; a revocation order is held or not. -/
def State.setTargetValid (s : State) (kind slot : Nat) (v : Bool) : State :=
  if kind ≤ 3 then s.setSlotsOf kind ((s.slotsOf kind).setValid slot v)
  else if kind = 4 then { s with sec := { s.sec with order := if v then some (s.manifest 4 0) else none } }
  else s

/-- A chunk is written: chunk 0 erases the target and clears its VALID first. -/
def State.writeChunk (s : State) (j : StageJob) : State :=
  let slot := s.target j.kind
  let data := s.windowBytes j.bytes
  let s := if j.chunk = 0 then (s.flashErase j.kind slot).setTargetValid j.kind slot false else s
  s.flashWrite j.kind slot (2048 * j.chunk) data

/-- The debug grant in the grant buffer (R494). -/
def State.stagedGrant (s : State) : Grant :=
  { codeHash := s.flashBytes 5 0 (imageOff + 32) 32
    rights := s.flashNat 5 0 (imageOff + 64) 4
    uses := s.flashNat 5 0 (imageOff + 68) 4 }

/-- The image of a grant keeps R494. -/
def State.grantOk (s : State) : Bool :=
  decide (s.stagedGrant.rights < 4 ∧ 1 ≤ s.stagedGrant.uses ∧ s.stagedGrant.uses ≤ 255) && s.flashNat 5 0 (imageOff + 72) 24 == 0

/-- The outcome of a verification. -/
def State.stagedCode (s : State) (kind : Nat) : Nat :=
  let c := s.verifyCode kind (s.target kind)
  if c = cOK ∧ kind = 5 ∧ !s.grantOk then cRANGE else c

/-- A verification ends: the target becomes VALID, or a grant replaces any earlier one. -/
def State.endVerify (s : State) (kind : Nat) : State :=
  let c := s.stagedCode kind
  if c = cOK then
    let s := s.setTargetValid kind (s.target kind) true
    let s := if kind = 5 then { s with sec := { s.sec with grant := some s.stagedGrant } } else s
    (s.setReg pSEC 0x118 (BitVec.ofNat 64 (kind * 16 + 2))).raise pSEC 0
  else (s.setReg pSEC 0x118 (BitVec.ofNat 64 (c * 65536 + kind * 16 + 3))).raise pSEC 1

/-- STAGE_COMPLETE (R489). -/
def execStageComplete (s : State) : Res :=
  match s.sec.busy with
  | none => .fault .notEnabled
  | some j =>
    let t : State := { s with sec := { s.sec with busy := none } }
    let t := if j.go then t.writeChunk j else t
    occurs s.boot.mscUp (if j.verify then t.endVerify j.kind else t.setReg pSEC 0x118 (BitVec.ofNat 64 (j.kind * 16)))

/-! ## Activation (R490 to R493) -/

/-- The manifests of the active images of all kinds. -/
def State.activeMans (s : State) : List Manifest := [1, 2, 3].map (fun k => s.manifest k (s.slotsOf k).active)

/-- Slots whose manifest a predicate names lose VALID. -/
def State.dropValid (s : State) (p : Manifest → Bool) : State :=
  [(1, 0), (1, 1), (2, 0), (2, 1), (3, 0), (3, 1)].foldl (fun (s : State) (e : Nat × Nat) =>
    if p (s.manifest e.1 e.2) then s.setSlotsOf e.1 ((s.slotsOf e.1).setValid e.2 false) else s) s

/-- A revocation order is activated (R493). -/
def State.revokeNow (s : State) : Nat × State :=
  match s.sec.order with
  | none => (cDEPENDENCY, s)
  | some o =>
    if o.revoke.testBit o.keyIndex ∨ s.activeMans.any (fun m => o.revoke.testBit m.keyIndex) then (cCONFLICT, s)
    else
      let t : State := { s with sec := { s.sec with revoke := s.sec.revoke ||| o.revoke } }
      (cOK, (t.dropValid (fun m => o.revoke.testBit m.keyIndex)).raise pSEC 2)

/-- The VALID inactive slot of a kind becomes active, in TRIAL (R490). -/
def State.activateSlot (s : State) (kind : Nat) : State :=
  let k := s.slotsOf kind
  let s := (s.setSlotsOf kind { k with
    active := 1 - k.active
    trial := true }).raise pSEC 2
  if kind = 1 then s.restartMsc 1
  else if kind = 2 then
    if s.jobUnder = 2 then { s with sec := { s.sec with seqSwitch := true } }
    else { s with sec := { s.sec with seqRun := s.runOf 2 s.sec.seqr.active } }
  else s

/-- A write of SEC.ACTIVATE with GO = 1; a freeze refuses it (R498). -/
def State.activateWrite (s : State) (kind : Nat) : Nat × State :=
  if kind = 0 ∨ 4 < kind then (cRANGE, s)
  else if !s.live then (cSTATE, s)
  else if kind = 4 then s.revokeNow
  else if !(s.slotsOf kind).valid (1 - (s.slotsOf kind).active) then (cDEPENDENCY, s)
  else (cOK, s.activateSlot kind)

/-- ACTIVATE (R490). -/
def execActivate (kind : Fin 16) (src : Src) (s : State) : Res := s.serveRow pSEC 0x120 src (s.activateWrite kind.val)

/-- A write of SEC.CONFIRM with GO = 1 and BURN = 0. -/
def State.confirmWrite (s : State) (kind : Nat) : Nat × State :=
  if kind = 0 ∨ 3 < kind then (cRANGE, s)
  else if !(s.slotsOf kind).trial then (cSTATE, s)
  else (cOK, s.setSlotsOf kind { s.slotsOf kind with trial := false })

/-- CONFIRM (R491). -/
def execConfirm (kind : Fin 16) (src : Src) (s : State) : Res := s.serveRow pSEC 0x128 src (s.confirmWrite kind.val)

/-- A write of SEC.CONFIRM with GO = 1 and BURN = 1 (R492). -/
def State.burnWrite (s : State) (kind : Nat) : Nat × State :=
  if kind ≠ 1 then (cRANGE, s)
  else if !s.sec.msc.trial then (cSTATE, s)
  else
    let goal := (s.manifest 1 s.sec.msc.active).svn
    if s.activeMans.any (fun m => decide (m.svn < goal)) then (cCONFLICT, s)
    else
      let t := s.setSlotsOf 1 { s.sec.msc with trial := false }
      let t : State := { t with sec := { t.sec with rollback := max t.sec.rollback goal } }
      (cOK, (t.dropValid (fun m => decide (m.svn < t.sec.rollback))).raise pSEC 5)

/-- BURN (R492). -/
def execBurn (kind : Fin 16) (src : Src) (s : State) : Res := s.serveRow pSEC 0x128 src (s.burnWrite kind.val)

/-! ## Attestation (R485 to R488) -/

/-- A byte string cut or filled with zeros to a length. -/
def fixLen (n : Nat) (l : List Byte) : List Byte := (l ++ List.replicate n 0).take n

/-- An entry of the report (R487). -/
def reportEntry (type flags value : Nat) (digest : List Byte) : List Byte :=
  natLe 2 type ++ natLe 2 flags ++ natLe 4 0 ++ natLe 8 value ++ fixLen 32 digest ++ List.replicate 16 0

/-- VALUE of a TYPE 2 to 4 entry. -/
def imageValue (r : Running) (k : Slots) : Nat :=
  r.man.version + r.man.svn * 2 ^ 32 + r.slot * 2 ^ 40 + b2n (k.trial && k.active == r.slot) * 2 ^ 41 + r.man.keyIndex * 2 ^ 48

/-- The program digest: CFE.PROG_DIGEST. -/
def State.progDigest (s : State) : List Byte := (List.range 4).flatMap (fun i => natLe 8 (s.reg pCFE (0x108 + 8 * i)).toNat)

/-- VALUE of the links entry. -/
def State.linksValue (s : State) : Nat :=
  ((List.range 12).map (fun p => s.htl p * 4 ^ p)).sum + ((List.range 4).map (fun d => s.ethLink d / 16 % 8 * 2 ^ (24 + 3 * d))).sum

/-- An unlocked Keyhole session is open. -/
def State.unlockedSession (s : State) : Bool :=
  match s.shut.session with
  | none => false
  | some k => k.unlocked

/-- VALUE of the mode entry. -/
def State.modeValue (s : State) : Nat :=
  s.job + s.rf pCFE 0x180 5 4 * 2 ^ 4 + s.rf pCFE 0x180 16 16 * 2 ^ 6 + s.genBase * 2 ^ 8 + s.rf (pRAS 0) 0x100 0 0 * 2 ^ 10 +
    s.bootMode * 2 ^ 12 + s.rf pCFE 0x200 1 0 * 2 ^ 14 + b2n s.unlockedSession * 2 ^ 16 + b2n s.sec.grant.isSome * 2 ^ 17

/-- The nine entries. -/
def State.reportEntries (s : State) (q : Nat) : List Byte :=
  reportEntry 1 0 0 Config.romDigest ++
  reportEntry 2 0 (imageValue s.sec.mscRun s.sec.msc) s.sec.mscRun.man.digest ++
  reportEntry 3 0 (imageValue s.sec.seqRun s.sec.seqr) s.sec.seqRun.man.digest ++
  reportEntry 4 0 (imageValue s.sec.cfgRun s.sec.cfg) s.sec.cfgRun.man.digest ++
  reportEntry 5 0 (s.sec.rollback + s.sec.revoke * 65536) Config.rootHash ++
  reportEntry 6 0 0 s.progDigest ++
  reportEntry 7 0 0 s.hcq.cfgDigest ++
  reportEntry 8 (s.rf pCFE (qOff q 0x00) 17 16) s.linksValue [] ++
  reportEntry 9 0 s.modeValue []

/-- The report (R486). -/
def State.report (s : State) (q : Nat) (d : Desc) (dseq : Nat) : List Byte :=
  let own := s.sec.aliasCert
  let device := Config.deviceCert
  let nonce := (List.range 4).flatMap (fun i => natLe 8 (d.word (2 + i)).toNat)
  let body := natLe 2 3 ++ natLe 2 9 ++ natLe 4 (0xC00 + own.length + device.length) ++ nonce ++ natLe 8 s.stepNo ++
    natLe 8 dseq ++ natLe 2 own.length ++ natLe 2 device.length ++ natLe 4 0 ++ s.reportEntries q
  body ++ fixLen 2420 (Config.mldsaSign s.sec.aliasPriv attestContext body) ++ List.replicate 12 0 ++ own ++ device

/-- Port and QPN of an ATTEST. -/
def attestQp (d : Desc) : Nat × Nat := (fld d.w7 57 56, fld d.w7 55 32)

/-- Conditions of ATTEST. -/
def State.attestChecks (s : State) (c : Cmd) : List Check :=
  let k := attestQp c.desc
  [resv c.desc 0 63 8, (7, 32, cDEPENDENCY, !s.qpUsable k.1 k.2), resv c.desc 7 63 58]

/-- The report goes out; the DSEQ of the command's completion record is set aside for it. -/
def State.startAttest (s : State) (q : Nat) (d : Desc) : State :=
  let n := s.nextDseq
  let s := n.2
  let s := { s with hcq := { s.hcq with aside := s.hcq.aside ++ [n.1] } }
  let r := s.report q d n.1
  let s := s.mapCmd q (fun c => { c with
    begun := true
    total := r.length
    dseq := some n.1 })
  s.postWrite q (attestQp d).1 (attestQp d).2 (fld d.w7 31 0) d.w6.toNat r

/-- ATTEST (R485): completes once the write is acknowledged. -/
def execAttest (q : QueueId) (s : State) : Res :=
  s.runCmd q.val 0x0C s.attestChecks unfrozen (fun c s => s.startAttest q.val c.desc)

end Sys2Proof.Machine
end

