-- ==== Sys2Proof/Machine/Training.lean ====
section
/-! DEFINITION. The end of a port's training: lanes that lock or fail, the training record, and the packets of a
port that does not come UP again (R328 to R330, R339, R345). -/

namespace Sys2Proof.Machine

/-! ## Routing of packets around a lost port -/

/-- Packets that an output or a replay buffer holds, oldest first, with their input slots. -/
def Port.held (k : Port) : List OutPkt :=
  k.replay.map (fun e => { pkt := e.2, need := 0, slot := 0, inVc := 0 }) ++ k.out0 ++ k.out1 ++ k.out2 ++ k.out3

/-- The packets of a port that goes FAILED leave it for another port of the direction, the other way, or are
discarded (R339, R345). -/
def State.rerouteHeld (s : State) (p : Nat) : State :=
  let k := s.port p
  let dir := s.rf (pTOR p) 0x108 11 9
  let s := s.setPort p { k with
    replay := []
    out0 := []
    out1 := []
    out2 := []
    out3 := []
    relink := false }
  k.held.foldl (fun (s : State) (o : OutPkt) =>
    let s := s.drainOut o
    s.routeTo 0 (p / 3) 0 (some (revDir dir)) ((s.dirFor o.pkt (some (revDir dir))).getD dir) o.pkt) s

/-- A port leaves training without coming UP: its packets are routed elsewhere. -/
def State.giveUp (s : State) (p st : Nat) : State := (s.failPort p st).rerouteHeld p

/-- LANE_LOCK (R329). -/
def execLaneLock (port : PortId) (lane : LaneId) (s : State) : Res :=
  occurs (s.linkState port.val == 1 && (s.port port.val).mayLock lane.val)
    (let t := s.lockLane port.val lane.val
    if t.linkState port.val = 1 then t else t.rerouteHeld port.val)

/-- LANE_LOCK_TIMEOUT (R329 step 2). -/
def execLaneLockTimeout (port : PortId) (s : State) : Res :=
  let p := port.val
  let k := s.port p
  let bad := k.unlocked
  let s1 := if k.step = 2 then s.setReg (pTOR p) 0x118 (BitVec.ofNat 64 (laneBits bad)) else s.setRf (pTOR p) 0x118 3 0 (laneBits bad)
  occurs (s.linkState p == 1 && (k.step == 2 || k.step == 5 || k.step == 6))
    (if k.step = 2 ∧ bad.length = 1 then s.exchange p
    else if k.step = 5 then s.giveUp p 3
    else s1.giveUp p 3)

/-- A training record is taken (R329 steps 3 to 5). -/
def State.takeRecord (s : State) (p : Nat) (r : TrainRec) : State :=
  let lanes : Nat := s.rf (pTOR p) 0x118 3 0 ||| r.failedLanes.toNat
  let s := s.setRf (pTOR p) 0x118 3 0 lanes
  let k := s.port p
  let s := s.setPort p { k with record := some r }
  let failed := (List.range 4).filter (fun l => lanes.testBit l)
  match failed with
  | [] => s.checkRecord p r
  | [l] =>
    if s.spareFree p && r.spareUsable then
      s.setPort p { s.port p with
        step := 5
        spareFor := some l }
    else s.failPort p 3
  | _ => s.failPort p 3

/-- TRAINING_RECORD (R329, R330). -/
def execTrainingRecord (port : PortId) (r : TrainRec) (s : State) : Res :=
  let p := port.val
  let t := s.takeRecord p r
  let st := t.linkState p
  occurs (s.linkState p == 1 && (s.port p).step == 3) (if st = 1 then t else t.rerouteHeld p)

end Sys2Proof.Machine
end

