-- ==== Sys2Proof/Machine/Reads.lean ====
section
/-! DEFINITION. What a read of a register returns: the stored value, or the value that its rule derives from the
rest of the state (R49 to R53, R56 and the register tables of every chapter). -/

namespace Sys2Proof.Machine

/-! ## Directions that the slice needs (R334, R349, R475) -/

/-- Directions that the slice needs at this node: both of a ring, and those toward more of an open line. -/
def State.needDirs (s : State) : List Dir :=
  (List.range 3).flatMap (fun (ax : Nat) =>
    let pos := s.slicePos ax (coordOf s.nodeId ax)
    if s.sExt ax = 1 then []
    else if s.isRing ax then [2 * ax, 2 * ax + 1]
    else (if pos + 1 < s.sExt ax then [2 * ax] else []) ++ (if pos = 0 then [] else [2 * ax + 1]))

/-- Ports that are UP and face a direction. -/
def State.upPorts (s : State) (dir : Nat) : List Nat :=
  (List.range 12).filter (fun p => s.linkState p == 2 && s.rf (pTOR p) 0x108 11 9 == dir)

/-- Ports that the profile gives a direction. -/
def State.profilePorts (s : State) (dir : Nat) : List Nat :=
  (List.range 12).filter (fun p => facingOf s.profile p == some dir)

/-- RTR.DIRS of a die. -/
def State.dirsReg (s : State) (die : Nat) : Nat :=
  ((List.range 3).map (fun (i : Nat) =>
    let p := 3 * die + i
    if s.portUsable p then 2 ^ (3 * s.rf (pTOR p) 0x108 11 9 + i) else 0)).sum

/-! ## STATUS (R51 and the classes) -/

/-- STATUS.CLASS_STATUS in place, bits [63:8]. -/
def State.classStatus (s : State) (c : Cls) (i : Nat) : Nat :=
  match c with
  | .mxa => 2 ^ 8 * b2n (s.liveState (i / 4) (i % 4) == 2)
  | .cor => 2 ^ 8 * b2n (s.leaves i)
  | .qnt => 2 ^ 8 * b2n (s.core i).qnt.isSome
  | .vec => 2 ^ 8 * b2n (s.core i).vec.isSome
  | .syn => 2 ^ 8 * b2n (s.sync.objs.any (fun e => e.1 / 16384 == i && e.2.waiters != []))
  | .txn => 2 ^ 8 * s.rf (pTXN i) 0x100 0 0
  | .mem => 2 ^ 8 * s.rf (pMEM i) 0x140 1 1
  | .llc => 2 ^ 8 * s.rf (pLLC i) 0x100 0 0
  | .tor => 2 ^ 8 * s.linkState i
  | .rtr => 2 ^ 8 * b2n (s.needDirs.all (fun d => s.upPorts d != []))
  | .col => 2 ^ 8 * s.rf (pCOL i) 0x110 50 48
  | .pwr => 2 ^ 8 * s.vidNow i * b2n (decide (i < 32))
  | .thm => 2 ^ 8 * b2n (s.dieCut i)
  | .ras => if i = 0 then s.rf (pRAS 0) 0x020 63 8 * 2 ^ 8 else 0
  | .gen => 2 ^ 8 * s.genBase
  | .dir => 0 | .cfe => 0 | .eth => 0 | .rce => 0 | .sht => 0 | .sec => 0

/-- STATUS. -/
def State.statusReg (s : State) (c : Cls) (i page : Nat) : Nat :=
  let pend := s.reg page 0x030 &&& ~~~ s.reg page 0x040
  s.classStatus c i + 4 * b2n (hasInject c && bitAt (s.reg page 0x050) 0) +
    2 * b2n (eventBits c i != 0 && pend != 0) + b2n (s.rf page 0x028 15 0 != 0)

/-- CTL.ENABLE as it reads: pages of kind fixed read 1 once their block has started (R62). -/
def State.enableReads (s : State) (c : Cls) (page : Nat) : Bool :=
  match c.enableKind with
  | 0 => false
  | 1 => s.pagePowered page
  | _ => s.enabled page

/-! ## Derived registers by class -/

/-- VER of a class.  MINOR is one value for a class, whatever image of whatever firmware runs: R69 says 'per firmware' and no
more (DESIGN CHOICE, log entry 66). -/
def verReg (c : Cls) : Nat := 3 * 2 ^ 16 + (Config.verMinor c.code).toNat

/-- DIR.RUN entries (R50): 21 entries of two words. -/
def runReg (k : Nat) : Nat :=
  match allCls[k / 2]? with
  | none => 0
  | some c => if k % 2 = 0 then c.code * 2 ^ 32 + c.count * 2 ^ 16 + c.base else verReg c

/-- CFE.SPARES (R421, R425). -/
def State.sparesReg (s : State) : Nat :=
  ((List.range 4).map (fun (d : Nat) =>
    let spare := ((List.range 8).map (fun (c : Nat) => (s.usable d c).length - s.clusterCores d c)).sum
    let gone := ((s.boot.harvest.filter (fun (k : Nat) => k / 40 == d && s.boot.spareSlots.contains k))).length
    (spare + 2 ^ 16 * gone) * 2 ^ (4 * d))).sum

/-- COR registers: the group of context 1 reads 0 in whole mode (R138). -/
def State.corReg (s : State) (n off : Nat) : Word :=
  if 0x180 ≤ off ∧ !s.leaves n then 0
  else if off = corOff 0 0x28 then BitVec.ofNat 64 (s.mxHeld n 0)
  else if off = corOff 1 0x28 then BitVec.ofNat 64 (s.mxHeld n 1)
  else s.reg (pCOR n) off

/-- MEM registers: GEOM.RESERVE, and the peaks of INFLIGHT, which depend on timing (a free value within the limits
of R299). -/
def State.memReg (s : State) (i off : Nat) : Word :=
  if off = 0x108 then setBit (s.reg (pMEM i) 0x108) 0 s.boot.cfg.reserve
  else if off = 0x118 then
    BitVec.ofNat 64 (Config.freeNat s.free % 2049 * 2 ^ 32 + Config.freeNat (s.free + 1) % 1025 * 2 ^ 48)
  else s.reg (pMEM i) off

/-- RTR registers: the straps are those of the package (R348). -/
def State.rtrReg (s : State) (d off : Nat) : Word :=
  if off = 0x100 then setBit (s.reg (pRTR 0) 0x100) 19 (decide (s.profile < 4))
  else if off = 0x128 then BitVec.ofNat 64 (s.dirsReg d)
  else s.reg (pRTR d) off

/-- COL.BARRIER (R361): H and h. -/
def State.barrierReg (s : State) : Nat :=
  ((List.range 3).map (fun ax => s.sExt ax - 1)).sum +
    2 ^ 8 * ((List.range 3).map (fun ax => s.slicePos ax (coordOf s.nodeId ax))).sum

/-- QPs connected on a port and not in the error state. -/
def State.qpCount (s : State) (p : Nat) : Nat := (s.qps.filter (fun q => q.port == p && !q.err)).length

/-- PWR.VSTATE.ENV_STATE. -/
def State.envState (s : State) (i : Nat) : Nat :=
  let now := s.rf (pPWR i) 0x110 15 0
  if s.pwr.stopped.isSome then 5
  else
    match (s.island i).target with
    | some t => if s.pwr.tokens.contains i then 4 else if now < t then 2 else 3
    | none => if now = 0 then 0 else 1

/-- PWR registers. -/
def State.pwrReg (s : State) (i off : Nat) : Word :=
  let v := s.reg (pPWR i) off
  if 32 ≤ i then v
  else if off = 0x108 then setFld (setBit v 33 (s.island i).lends) 39 37 (s.envState i)
  else if off = 0x110 then
    setFld (setFld v 31 16 (if 2 ≤ s.stage then s.committed i else 0)) 47 32 (s.ceiling i)
  else v

/-- THM.READ: the sensor that THM.SEL selects, at the last sample. -/
def State.thmRead (s : State) (d : Nat) : Nat :=
  match (Tab.get s.thm.samples [] d)[s.rf (pTHM d) 0x110 5 0]? with
  | none => 0
  | some k => tempField k.temp + 2 ^ 16 * b2n (!k.failed) + 2 ^ 17 * b2n k.failed

/-- RAS.DEGRADED. -/
def State.degraded (s : State) : Nat :=
  b2n (s.needDirs.any (fun d => decide ((s.upPorts d).length < (s.profilePorts d).length))) +
    2 * b2n ((List.range 20).any (fun i => s.reg (pMEM i) 0x158 != 0)) +
    4 * b2n ((List.range 12).any (fun p => bitAt (s.reg (pTOR p) 0x118) 7)) +
    8 * b2n ((List.range 4).any (fun p => s.enabled (pETH p) && s.ethLink p % 4 != 2)) +
    16 * b2n ((List.range 4).any s.dieCut) + 32 * b2n (decide (s.rf (pPWR 32) 0x140 11 0 < 2800))

/-- RAS registers of page 0. -/
def State.ras0Reg (s : State) (off : Nat) : Word :=
  match off with
  | 0x118 => BitVec.ofNat 64 s.boot.fatals
  | 0x120 => BitVec.ofNat 64 s.degraded
  | 0x128 => BitVec.ofNat 64 (s.boot.availMs / 1000)
  | 0x130 => BitVec.ofNat 64 s.boot.downMs
  | 0x140 => BitVec.ofNat 64 (s.spareUsed + 2 ^ 8 * s.boot.spareSlots.length + 2 ^ 16 * s.boot.sparePchs.length)
  | _ => s.reg (pRAS 0) off

/-- A group of SEC.SLOTS. -/
def slotsReg (k : Slots) : Nat := k.active + 2 * b2n k.trial + 4 * b2n k.validA + 8 * b2n k.validB

/-- SEC.MSC_VER, SEQ_VER, CFG_VER. -/
def verOf (r : Running) : Nat := r.man.version % 2 ^ 32 + r.man.svn % 128 * 2 ^ 32 + r.slot * 2 ^ 40

/-- SEC.UNLOCK. -/
def State.unlockReg (s : State) : Nat :=
  2 * b2n s.unlockedSession +
    (match s.sec.grant with
    | none => 0
    | some g => 1 + 2 ^ 8 * g.uses + 2 ^ 16 * g.rights)

/-- SEC registers. -/
def State.secReg (s : State) (off : Nat) : Word :=
  if 0x138 ≤ off ∧ off ≤ 0x150 then BitVec.ofNat 64 (leNat ((s.deviceHash.drop (off - 0x138)).take 8))
  else
    match off with
    | 0x100 => BitVec.ofNat 64 (s.sec.rollback + 2 ^ 16 * s.sec.revoke + 2 ^ 40 * b2n s.sec.udsLocked)
    | 0x108 => BitVec.ofNat 64
        (slotsReg s.sec.msc + 2 ^ 8 * slotsReg s.sec.seqr + 2 ^ 16 * slotsReg s.sec.cfg + 2 ^ 24 * b2n s.sec.grant.isSome)
    | 0x130 => BitVec.ofNat 64 s.unlockReg
    | 0x158 => BitVec.ofNat 64 (verOf s.sec.mscRun)
    | 0x160 => BitVec.ofNat 64 (verOf s.sec.seqRun)
    | 0x168 => BitVec.ofNat 64 (verOf s.sec.cfgRun)
    | _ => s.reg pSEC off

/-- A block-specific register that reads. -/
def State.blockReg (s : State) (c : Cls) (i page off : Nat) : Word :=
  match c with
  | .dir => if off < 0x200 then s.reg page off else BitVec.ofNat 64 (runReg ((off - 0x200) / 8))
  | .cfe => if i = 0 ∧ off = 0x220 then BitVec.ofNat 64 s.sparesReg else s.reg page off
  | .mxa => if off = 0x100 then setFld (s.reg page off) 0 0 (s.arrOwner (i / 4) (i % 4)) else s.reg page off
  | .cor => s.corReg i off
  | .syn => if 0x108 ≤ off ∧ off ≤ 0x170 then s.readView i off else s.reg page off
  | .mem => s.memReg i off
  | .rtr => s.rtrReg i off
  | .col => if off = 0x108 then BitVec.ofNat 64 s.barrierReg else s.reg page off
  | .eth => if off = 0x108 then BitVec.ofNat 64 (s.ethLink i) else s.reg page off
  | .rce => if off = 0x120 then setFld (s.reg page off) 10 0 (s.qpCount i) else s.reg page off
  | .pwr => s.pwrReg i off
  | .thm => if off = 0x118 then BitVec.ofNat 64 (s.thmRead i) else s.reg page off
  | .ras => if i = 0 then s.ras0Reg off else s.reg page off
  | .sec => s.secReg off
  | .gen => if off = 0x108 then BitVec.ofNat 64 (allowedOf s.genBase) else s.reg page off
  | .qnt => s.reg page off | .vec => s.reg page off | .txn => s.reg page off | .llc => s.reg page off
  | .tor => s.reg page off | .sht => s.reg page off

/-- A header register that reads. -/
def State.headerReg (s : State) (c : Cls) (i page off : Nat) : Word :=
  match off with
  | 0x000 => BitVec.ofNat 64 (page * 2 ^ 24 + i * 2 ^ 8 + c.code)
  | 0x008 => BitVec.ofNat 64 (verReg c)
  | 0x010 => BitVec.ofNat 64 (classCap c i + 4 * c.enableKind + 2 * b2n (hasInject c) + b2n (eventBits c i != 0))
  | 0x018 => BitVec.ofNat 64 (b2n (s.enableReads c page))
  | 0x020 => BitVec.ofNat 64 (s.statusReg c i page)
  | _ => s.reg page off

/-- The reset value of a block-specific register as a read of an unpowered page gives it: the ones that the tables give
per run (R50), per boot (MEM.GEOM.RESERVE, R321) and per profile (TOR.LINK.FACING, R346) follow the state. -/
def State.resetRead (s : State) (c : Cls) (i page off : Nat) : Word :=
  let v := resetVal (regKey page off)
  match c with
  | .dir => s.blockReg .dir i page off
  | .mem => if off = 0x108 then setBit v 0 s.boot.cfg.reserve else v
  | .tor => if off = 0x108 then setFld v 11 9 ((facingOf s.profile i).getD 0) else v
  | .cfe => v | .mxa => v | .cor => v | .qnt => v | .vec => v | .syn => v | .txn => v | .llc => v | .rtr => v
  | .col => v | .eth => v | .rce => v | .pwr => v | .thm => v | .ras => v | .sht => v | .sec => v | .gen => v

/-- A read of a register of a listed page: a reserved offset reads 0, and a block-specific register of a page whose
block is not powered its reset value (R51, R56, R418). -/
def State.readReg (s : State) (page off : Nat) : Word :=
  match classify page with
  | none => 0
  | some (c, i) =>
    match findReg c i off with
    | none => 0
    | some r =>
      if off < 0x100 then s.headerReg c i page off
      else if !s.pagePowered page then s.resetRead c i page off
      else if r.rw = 0 ∧ r.wo ≠ 0 then 0
      else s.blockReg c i page off

end Sys2Proof.Machine
end

