-- ==== Sys2Proof/Machine/Enable.lean ====
section
/-! DEFINITION. The enable check of every page class (R58 to R62 and the classes' own conditions). -/

namespace Sys2Proof.Machine

/-- One condition of an enable check: code, offset that is reported, and whether it fails. -/
abbrev Cond := Nat × Nat × Bool

/-- The first condition that fails. -/
def firstFail (l : List Cond) : Option (Nat × Nat) := (l.find? (fun c => c.2.2)).map (fun c => (c.1, c.2.1))

/-- A page that accepts an enable in wicket service (R418). -/
def State.wicketPage (s : State) (c : Cls) (i : Nat) : Bool :=
  let n := s.clusterCores 0 0
  match c with
  | .mxa => decide (i / 4 < n)
  | .cor => decide (i < n)
  | .qnt => decide (i < n)
  | .vec => decide (i < n)
  | .syn => decide (i < n) || i == 144
  | .llc => i == 0
  | .eth => i == 0 && (s.rf (pETH 0) 0x100 2 0 == 4 || s.rf (pETH 0) 0x100 2 0 == 5)
  | .rce => i == 0
  | .sht => true
  | .cfe => true
  | .dir => false | .txn => false | .mem => false | .tor => false | .rtr => false | .col => false | .pwr => false
  | .thm => false | .ras => false | .sec => false | .gen => false

/-- The block is held by the MSC or by a Shutter freeze (R60, R418). -/
def State.heldBack (s : State) (c : Cls) (i page : Nat) : Bool :=
  if c.enableKind = 1 then !s.pagePowered page
  else !s.live || decide (s.stage < 2) || (s.stage == 2 && !s.wicketPage c i)

/-! ## Conditions of the classes -/

/-- SYN.LEND of a die page (R253, R256). -/
def State.lendConds (s : State) (i : Nat) : List Cond :=
  let t := s.rf (pSYN i) 0x180 25 16
  if i < 144 then []
  else [(cRANGE, 0x180, t == 0 || decide (1000 < t)), (cCONFLICT, 0x180, s.rf (pSYN i) 0x180 1 0 == 3)]

/-- R290. -/
def State.txnConds (s : State) (d : Nat) : List Cond :=
  let save := (s.reg (pTXN d) 0x108).toNat
  let table := (s.reg (pTXN 0) 0x110).toNat
  let count := s.rf (pTXN 0) 0x118 10 0
  let saveLen := 297 * 2 ^ 20
  let tableLen := 65536
  [ (cDEPENDENCY, 0x100, s.rf (pTXN d) 0x100 0 0 == 1 && (rangeFrom (8 * d) 8).any (fun l => !s.enabled (pLLC l))),
    (cRANGE, 0x108, decide (s.hbmEnd < save + saveLen) ||
      (d == 0 && decide (save < table + tableLen ∧ table < save + saveLen))),
    (cALIGN, 0x108, save % 4096 != 0) ] ++
  (if d ≠ 0 then [] else
    [ (cRANGE, 0x110, decide (s.hbmEnd < table + tableLen)), (cALIGN, 0x110, table % 4096 != 0),
      (cRANGE, 0x118, count == 0 || decide (1024 < count)) ])

/-- R294 and R322. -/
def State.memConds (s : State) (i : Nat) : List Cond :=
  let r := s.reg (pMEM i) 0x110
  let il := s.rf (pMEM i) 0x100 1 0
  [ (cRANGE, 0x100, decide (2 ≤ il)),
    (cCONFLICT, 0x100, (List.range 20).any (fun j => j != i && s.enabled (pMEM j) && s.rf (pMEM j) 0x100 1 0 != il)),
    (cRANGE, 0x110, fld r 3 0 == 0 || fld r 11 8 == 0 || fld r 19 16 == 0 || fld r 27 24 == 0) ]

/-- R325. -/
def State.llcConds (s : State) (i : Nat) : List Cond :=
  [(cDEPENDENCY, 0x100, s.rf (pLLC i) 0x100 0 0 == 1 && (rangeFrom (5 * (i / 8)) 5).any (fun m => !s.enabled (pMEM m)))]

/-- A WRAP-candidate port that the machine's extents or WRAP flags contradict (R330, R334). -/
def State.badWrap (s : State) (p : Nat) : Bool :=
  let f := s.rf (pTOR p) 0x108 11 9
  let ax := f / 2
  let e := s.mExt ax
  let own := coordOf s.nodeId ax
  let other := coordOf (s.rf (pTOR p) 0x110 14 0) ax
  s.linkState p == 2 && bitAt (s.reg (pTOR p) 0x108) 12 &&
    (!s.mWrap ax || (if f % 2 = 0 then own != e - 1 else own != 0 || other != e - 1))

/-- A direction that the slice needs has no UP port, no route inside the slice and no transit (R334, R339). -/
def State.noRoute (s : State) (d : Dir) : Bool :=
  let ax := d / 2
  let back := s.upPorts (revDir d) != []
  let allow := (match s.rtrPage with
    | none => false
    | some q => bitAt (s.reg (pRTR q) 0x118) 0)
  s.upPorts d == [] && !(back && (s.isRing ax || (s.mWrap ax && allow)))

/-- R334 but for the straps: extents and origins are those of the page under check, which agrees with every enabled
page when they are looked at. -/
def State.rtrConds (s : State) (d : Nat) : List Cond :=
  let differs (off : Nat) : Bool := (List.range 4).any (fun (q : Nat) =>
    q != d && s.enabled (pRTR q) && s.reg (pRTR q) off != s.reg (pRTR d) off)
  let t := s.setRf (pRTR d) 0x018 0 0 1
  let axes (p : Nat → Bool) : Bool := (List.range 3).any p
  [ (cCONFLICT, 0x108, differs 0x108), (cCONFLICT, 0x110, differs 0x110), (cCONFLICT, 0x118, differs 0x118),
    (cTOPOLOGY, 0x108, axes (fun a => decide (t.mExt a ≤ coordOf t.nodeId a))),
    (cTOPOLOGY, 0x110, axes (fun a => !decide (t.slicePos a (coordOf t.nodeId a) < t.sExt a))),
    (cTOPOLOGY, 0x110, axes (fun a => decide (t.mExt a < t.sExt a))),
    (cTOPOLOGY, 0x110, axes (fun a => !t.mWrap a && decide (t.mExt a < t.sOrg a + t.sExt a))),
    (cTOPOLOGY, 0x108, s.profile == 3 && decide (1 < t.mExt 1 ∨ 1 < t.mExt 2)),
    (cTOPOLOGY, 0x108, (List.range 12).any t.badWrap),
    (cROUTE, 0x110, t.needDirs.any t.noRoute) ]

/-- Generation that a BASE names: 0 HK3, 1 HK2, 2 HK1. -/
def baseGen (base : Nat) : Nat := 3 - base

/-- R378: ports that are UP with a partner inside the slice. -/
def State.genConds (s : State) : List Cond :=
  let gen (p : Nat) : Nat := s.rf pGEN 0x110 (2 * p + 1) (2 * p)
  let up := (List.range 12).filter (fun (p : Nat) => s.linkState p == 2 && s.inSlice (s.rf (pTOR p) 0x110 14 0))
  let onY (p : Nat) : Bool := s.rf (pTOR p) 0x108 11 9 / 2 == 1
  [ (cRANGE, 0x100, s.genBase == 3),
    (cVERSION, 0x100, up.any (fun p => onY p && decide (gen p < baseGen s.genBase))),
    (cDEPENDENCY, 0x100, s.rtrPage.isNone),
    (cTOPOLOGY, 0x100, up.any (fun p => !onY p && gen p != 3)) ]

/-- R409. -/
def State.ethConds (s : State) (i : Nat) : List Cond :=
  let m := s.rf (pETH i) 0x100 2 0
  [(cRANGE, 0x100, decide (5 < m) || (i != 0 && decide (3 < m)))]

/-- Pages of register space in a range of page indices that are listed. -/
def listedIn (lo hi : Nat) : Nat := (allCls.map (fun c => min hi (c.base + c.count) - max lo c.base)).sum

/-- A byte range reaches no reserved address and no unlisted page. -/
def State.mrFits (s : State) (a len : Nat) : Bool :=
  let e := a + len
  decide (e ≤ s.hbmEnd) || decide (scratchBase ≤ a ∧ e ≤ scratchBase + 0x20000000) ||
    decide (storeBase ≤ a ∧ e ≤ storeBase + 144 * storeSize) ||
    (decide (regBase ≤ a ∧ e ≤ regBase + 0x10000000) &&
      (let lo := (a - regBase) / 4096
       let hi := (e + 4095 - regBase) / 4096
       listedIn lo hi == hi - lo))

/-- Offsets of RCE.MR[i]: BASE; LEN and KEY follow. -/
def mrOff (i : Nat) : Nat := 0x140 + 0x18 * i

/-- RCE.MR[i].KEY. -/
def State.mrKey (s : State) (p i : Nat) : Word := s.reg (pRCE p) (mrOff i + 0x10)

/-- R410: RANGE and ALIGN judge every MR, CONFLICT the valid ones. -/
def State.rceConds (s : State) (p : Nat) : List Cond :=
  let valid (i : Nat) : Bool := bitAt (s.mrKey p i) 34
  let key (i : Nat) : Nat := fld (s.mrKey p i) 31 0
  let mtu := s.rf (pRCE p) 0x100 2 0
  (cRANGE, 0x100, mtu == 0 || decide (5 < mtu)) ::
  (List.range 16).flatMap (fun (i : Nat) =>
    let o := mrOff i
    let a := (s.reg (pRCE p) o).toNat
    let len := (s.reg (pRCE p) (o + 8)).toNat
    let own : List Cond := if i = 0 then [] else
      [ (cRANGE, o, !s.mrFits a 1), (cALIGN, o, a % 4096 != 0), (cRANGE, o + 8, !s.mrFits a len),
        (cALIGN, o + 8, len % 4096 != 0) ]
    own ++ [(cCONFLICT, o + 0x10, valid i && (List.range 16).any (fun j => j != i && valid j && key j == key i))])

/-- R474: a CORE is named by KIND 1, a PAGE and a BIT by KIND 3. -/
def State.shtConds (s : State) : List Cond :=
  let g := s.reg pSHT 0x100
  let t := s.reg pSHT 0x118
  let badBit := (match classify (fld t 39 24) with
    | none => true
    | some (c, i) => decide (eventBits c i ≤ fld t 45 40))
  [ (cRANGE, 0x100, fld g 1 0 == 3 || fld g 3 2 == 3),
    (cRANGE, 0x118, (fld t 1 0 == 1 && decide (143 < fld t 15 8)) || (fld t 1 0 == 3 && badBit)) ]

/-- Conditions on the block-specific registers of a page. -/
def State.classConds (s : State) (c : Cls) (i : Nat) : List Cond :=
  match c with
  | .qnt =>
    let w := s.reg (pQNT i) 0x100
    [(cRANGE, 0x100, gBad w), (cALIGN, 0x100, fld w 5 0 != 0)]
  | .syn => s.lendConds i
  | .txn => s.txnConds i
  | .mem => s.memConds i
  | .llc => s.llcConds i
  | .tor => [(cRANGE, 0x100, s.rf (pTOR i) 0x100 1 0 == 0)]
  | .rtr => s.rtrConds i
  | .col => [(cRANGE, 0x100, s.rf (pCOL i) 0x100 15 0 == 0)]
  | .gen => s.genConds
  | .eth => s.ethConds i
  | .rce => s.rceConds i
  | .sht => s.shtConds
  | .dir => [] | .cfe => [] | .mxa => [] | .cor => [] | .vec => [] | .pwr => [] | .thm => [] | .ras => [] | .sec => []

/-- Conditions that name no block-specific register, reported at the offset of CTL (R59). -/
def State.ctlConds (s : State) (c : Cls) (i page : Nat) : List Cond :=
  [ (cRANGE, 0x018, c == .rtr && decide (3 < s.profile)), (cLOCKED, 0x018, s.heldBack c i page),
    (cDEPENDENCY, 0x018, c == .rce && !s.enabled (pETH i)) ]

/-- The enable check of a page: the code and offset of the first failure. -/
def State.enableCheck (s : State) (c : Cls) (i page : Nat) : Option (Nat × Nat) :=
  firstFail (s.ctlConds c i page ++ s.classConds c i)

/-- The enable check runs and REASON records its outcome, with SOURCE 1, or 2 for a check only (R57, R58): whether it
passed. -/
def State.runCheck (s : State) (c : Cls) (i page src : Nat) : Bool × State :=
  match s.enableCheck c i page with
  | none => (true, s.setReason page 0 cOK src)
  | some f => (false, s.setReason page f.2 f.1 src)

/-! ## What enabling and disabling do -/

/-- The page is enabled: scratchpad contents are undefined (R297), an Ethernet port trains (R385), an armed SHT.TRIG
may match anew. -/
def State.onEnable (s : State) (c : Cls) (i page : Nat) : State :=
  let s := s.setRf page 0x018 0 0 1
  match c with
  | .llc =>
    if s.cacheMode i then s else s.undefine (scratchBase + i * 0x1000000) (scratchBase + (i + 1) * 0x1000000)
  | .eth => s.setReg (pETH i) 0x108 1
  | .sht => { s with shut := { s.shut with trigUsed := false } }
  | .dir => s | .cfe => s | .mxa => s | .cor => s | .qnt => s | .vec => s | .syn => s | .txn => s | .mem => s
  | .tor => s | .rtr => s | .col => s | .rce => s | .pwr => s | .thm => s | .ras => s | .sec => s | .gen => s

/-- The QPs of a port enter the error state. -/
def State.breakPort (s : State) (p : Nat) : State :=
  (s.qps.filter (fun q => q.port == p && !q.err)).foldl (fun (s : State) (q : Qp) => s.breakQp p q.qpn) s

/-- The page is disabled: a slice in cache mode has written back its dirty lines (R297), an Ethernet port leaves UP,
the QPs of a port have no service. -/
def State.onDisable (s : State) (c : Cls) (i page : Nat) : State :=
  if !s.enabled page then s
  else
    let was := s.rf page 0x108 1 0
    let s := s.setRf page 0x018 0 0 0
    match c with
    | .llc =>
      if s.cacheMode i then
        let d := s.draw
        d.2.addReg (pLLC i) 0x118 (Config.freeNat d.1 % 262145)
      else s
    | .eth => ((s.setReg (pETH i) 0x108 0).raiseIf (was == 2) (pETH i) 1).breakPort i
    | .rce => s.breakPort i
    | .dir => s | .cfe => s | .mxa => s | .cor => s | .qnt => s | .vec => s | .syn => s | .txn => s | .mem => s
    | .tor => s | .rtr => s | .col => s | .sht => s | .pwr => s | .thm => s | .ras => s | .sec => s | .gen => s

/-- A write of CTL (R58, R62): a code that refuses it, or OK. -/
def State.ctlWrite (s : State) (c : Cls) (i page : Nat) (v : Word) : Nat × State :=
  if c.enableKind = 0 then (cRANGE, s)
  else if bitAt v 1 then (cOK, (s.runCheck c i page 2).2)
  else if bitAt v 0 then
    if s.enableReads c page then (cOK, s)
    else
      let r := s.runCheck c i page 1
      (cOK, if r.1 && c.enableKind != 1 then r.2.onEnable c i page else r.2)
  else if c.enableKind = 1 then (cLOCKED, s)
  else if c.enableKind = 2 ∧ c ≠ .tor ∧ s.jobBusy then (cSTATE, s)
  else (cOK, s.onDisable c i page)

end Sys2Proof.Machine
end

