-- ==== Sys2Proof/Machine/Pages.lean ====
section
/-! DEFINITION. Register writes: what the write of each register does, or the code that refuses it (R16, R52 to R57, R62,
R65, R66, R458 and the register tables of every chapter). -/

namespace Sys2Proof.Machine

/-! ## Writes of stored fields (R53, R54) -/

/-- A register's RWL fields are locked. -/
def State.lockedReg (s : State) (page off : Nat) (r : Reg) : Bool :=
  match r.lock with
  | .enable => s.enabled page
  | .job => s.jobBusy || s.hcq.starting.isSome
  | .queue => bitAt (s.reg page (off / 0x40 * 0x40)) 0
  | .evq => bitAt (s.reg page 0x138) 0

/-- The value that a write stores: RW and RWL bits are taken, ones clear W1C bits. -/
def Reg.stored (r : Reg) (old v : Word) : Word :=
  let rw := BitVec.ofNat 64 r.rw
  let w1c := BitVec.ofNat 64 r.w1c
  (old &&& ~~~(rw ||| w1c)) ||| (v &&& rw) ||| (old &&& w1c &&& ~~~v)

/-- A locked register refuses a write: any, when it has no other writable bit, else one that changes a locked bit. -/
def State.refusesLocked (s : State) (page off : Nat) (r : Reg) (v : Word) : Bool :=
  let old := s.reg page off
  let bits := BitVec.ofNat 64 r.rwl
  r.rwl != 0 && s.lockedReg page off r && (r.rwl == (r.rw ||| r.w1c ||| r.wo) || (old &&& bits) != (v &&& bits))

/-- A write of a register without behaviour of its own. -/
def State.storeWrite (s : State) (page off : Nat) (r : Reg) (v : Word) : Nat × State :=
  if s.refusesLocked page off r v then (cLOCKED, s) else (cOK, s.setReg page off (r.stored (s.reg page off) v))

/-- A write that is stored where the value keeps its range, in the order of the codes. -/
def State.rangedWrite (s : State) (page off : Nat) (r : Reg) (v : Word) (code : Nat) : Nat × State :=
  if s.refusesLocked page off r v then (cLOCKED, s)
  else if code ≠ cOK then (code, s)
  else s.storeWrite page off r v

/-! ## The header (R52, R65, R66, R458) -/

/-- A write of EVT_STATUS: each 1 clears its bit. -/
def State.clearEvents (s : State) (page : Nat) (ones : Word) : State :=
  s.setReg page 0x030 (s.reg page 0x030 &&& ~~~ones)

/-- A write of EVT_MASK: a bit that is set and becomes unmasked is reported once. -/
def State.maskWrite (s : State) (c : Cls) (i page : Nat) (v : Word) : State :=
  let shown := s.reg page 0x030 &&& s.reg page 0x040 &&& ~~~v
  let s := s.setReg page 0x040 (v &&& BitVec.ofNat 64 (2 ^ eventBits c i - 1))
  ((List.range (eventBits c i)).filter (bitAt shown)).foldl (fun (s : State) (b : Nat) => s.reportEvent page b) s

/-- A write of INJECT. -/
def State.injectWrite (s : State) (c : Cls) (i page : Nat) (v : Word) : Nat × State :=
  let mode := fld v 1 0
  if mode = 3 ∨ (mode = 2 ∧ fld v 39 16 = 0) ∨ (mode ≠ 0 ∧ !injectPoint c i (fld v 15 8)) then (cRANGE, s)
  else if mode ≠ 0 ∧ !bitAt (s.reg (pRAS 0) 0x100) 0 then (cLOCKED, s)
  else
    let s := s.setReg page 0x048 (v &&& BitVec.ofNat 64 (ones 39 8 + 3))
    let s := s.setReg page 0x050 (BitVec.ofNat 64 (b2n (mode != 0)))
    (cOK, { s with inj := Tab.set s.inj 0 page 0 })

/-- Every INJECT register of the package is disarmed: MODE 0, FIRED as it is. -/
def State.disarmAll (s : State) : State :=
  { s with regs := s.regs.map (fun e =>
      if e.1 % 4096 = 0x048 then (e.1, setFld e.2 1 0 0)
      else if e.1 % 4096 = 0x050 then (e.1, setFld e.2 0 0 0)
      else e) }

/-- A write of RAS.CFG: one with INJ_ALLOW = 0 disarms. -/
def State.rasCfgWrite (s : State) (r : Reg) (v : Word) : Nat × State :=
  let w := s.storeWrite (pRAS 0) 0x100 r v
  (w.1, if w.1 = cOK ∧ !bitAt v 0 then w.2.disarmAll else w.2)

/-! ## Registers of the CFE -/

/-- Writable bits of CFE.EVQ_CFG other than EN. -/
def evqBits : Word := mask 55 32 ||| mask 29 24

/-- A write of CFE.EVQ_CFG (R406, R407, R419). -/
def State.evqWrite (s : State) (v : Word) : Nat × State :=
  let old := s.reg pCFE 0x138
  if bitAt old 0 && (old &&& evqBits) != (v &&& evqBits) then (cLOCKED, s)
  else if !bitAt v 0 then (cOK, s.setReg pCFE 0x138 (v &&& evqBits))
  else if bitAt old 0 then (cOK, s)
  else if fld v 27 24 < 4 then (cRANGE, s)
  else if (s.reg pCFE 0x140).toNat % (32 * 2 ^ fld v 27 24) ≠ 0 then (cALIGN, s)
  else if !s.qpUsable (fld v 29 28) (fld v 55 32) then (cDEPENDENCY, s)
  else if s.stage < 3 ∧ !wicketSpan (s.reg pCFE 0x140).toNat (32 * 2 ^ fld v 27 24) then (cDEPENDENCY, s)
  else (cOK, (s.setReg pCFE 0x138 ((v &&& evqBits) ||| 1)).flushRecs)

/-- A write of a ring's HEAD: held records go out as far as there is room (R396). -/
def State.headWrite (s : State) (off : Nat) (v : Word) : Nat × State :=
  (cOK, (s.setRf pCFE off 31 0 (fld v 31 0)).flushRecs)

/-- A write of CFE.RUN_MODE (R37, R38). -/
def State.runModeWrite (s : State) (r : Reg) (v : Word) : Nat × State :=
  if s.hcq.starting.isSome then (cLOCKED, s)
  else s.rangedWrite pCFE 0x180 r v (if 2 ≤ fld v 1 0 then cRANGE else cOK)

/-- A write of CFE.BOOT_CTL (R416, R426). -/
def State.bootCtlWrite (s : State) (v : Word) : Nat × State :=
  if bitAt v 8 then s.warmWrite (fld v 23 16) (bitAt v 0) else if bitAt v 0 then s.goWrite else (cOK, s)

/-- A write of a register of CFE page 0. -/
def State.cfeWrite (s : State) (off : Nat) (r : Reg) (v : Word) : Nat × State :=
  match off with
  | 0x138 => s.evqWrite v
  | 0x150 => s.headWrite 0x150 v
  | 0x180 => s.runModeWrite r v
  | 0x188 => s.stepEndWrite (bitAt v 0)
  | 0x1E0 => (cOK, s.verdictSet (fld v 2 0))
  | 0x1E8 => s.evalWrite (bitAt v 0)
  | 0x210 => s.bootCtlWrite v
  | 0x218 => if bitAt v 8 then s.coreResetWrite (fld v 7 0) else (cOK, s)
  | _ =>
    if 0x400 ≤ off ∧ off < 0x800 then
      (match (off - 0x400) % 0x40 with
      | 0x00 => s.queueWrite ((off - 0x400) / 0x40) v
      | 0x28 => s.headWrite off v
      | _ => s.storeWrite pCFE off r v)
    else s.storeWrite pCFE off r v

/-! ## Registers of the other classes -/

/-- A write of SYN.HOST_OP. -/
def State.hostOpWrite (s : State) (unit : Nat) (v : Word) : Nat × State :=
  s.hostOp unit (fld v 15 14) (fld v 13 13) (fld v 12 0) (fld v 63 32)

/-- A write of MEM.CFG: a new INTERLEAVE leaves the contents of all HBM undefined (R294). -/
def State.memCfgWrite (s : State) (i : Nat) (r : Reg) (v : Word) : Nat × State :=
  let was := s.rf (pMEM i) 0x100 1 0
  let w := s.storeWrite (pMEM i) 0x100 r v
  if w.1 = cOK ∧ fld v 1 0 ≠ was then (w.1, w.2.undefine 0 s.hbmEnd) else w

/-- The refusal of a value of PWR.VCFG (R448). -/
def vcfgCode (v : Word) : Nat :=
  if 50 < fld v 13 8 ∨ 50 < fld v 5 0 then cRANGE else if fld v 13 8 < fld v 5 0 then cCONFLICT else cOK

/-- The refusal of a value outside a range. -/
def rangeCode (lo hi n : Nat) : Nat := if lo ≤ n ∧ n ≤ hi then cOK else cRANGE

/-- A write of a PWR register (R448). -/
def State.pwrWrite (s : State) (page off : Nat) (r : Reg) (v : Word) : Nat × State :=
  match off with
  | 0x100 => s.rangedWrite page off r v (vcfgCode v)
  | 0x140 => s.rangedWrite page off r v (rangeCode 1700 2800 (fld v 11 0))
  | 0x148 => s.rangedWrite page off r v (rangeCode 1 1000 (fld v 9 0))
  | _ => s.storeWrite page off r v

/-- A write of THM.CFG (R450). -/
def State.thmWrite (s : State) (page off : Nat) (r : Reg) (v : Word) : Nat × State :=
  if off = 0x100 then
    s.rangedWrite page off r v (if rangeCode 70 95 (fld v 7 0) = cOK then rangeCode 1 10 (fld v 11 8) else cRANGE)
  else s.storeWrite page off r v

/-- A reserved KIND or value of SEC.STAGE, ACTIVATE or CONFIRM, whether or not the write asks for anything (R16, R496). -/
def badSec (off : Nat) (v : Word) : Bool :=
  let kind := fld v 3 0
  match off with
  | 0x110 => (stageOf v).bad
  | 0x120 => kind == 0 || decide (4 < kind)
  | 0x128 => kind == 0 || decide (3 < kind) || (bitAt v 9 && kind != 1)
  | _ => false

/-- A write of SEC.STAGE, ACTIVATE and CONFIRM (R489 to R492, R496). -/
def State.secWrite (s : State) (off : Nat) (r : Reg) (v : Word) : Nat × State :=
  let kind := fld v 3 0
  if badSec off v then (cRANGE, s)
  else
    match off with
    | 0x110 => if bitAt v 8 || bitAt v 9 then s.stageWrite (stageOf v) else (cOK, s)
    | 0x120 => if bitAt v 8 then s.activateWrite kind else (cOK, s)
    | 0x128 => if !bitAt v 8 then (cOK, s) else if bitAt v 9 then s.burnWrite kind else s.confirmWrite kind
    | _ => s.storeWrite pSEC off r v

/-- A write of a block-specific register of a page. -/
def State.blockWrite (s : State) (c : Cls) (i page off : Nat) (r : Reg) (v : Word) : Nat × State :=
  match c, off with
  | .cfe, _ => if i = 0 then s.cfeWrite off r v else s.doorbell ((off - 0x100) / 8) (fld v 31 0)
  | .syn, 0x100 => s.writeSel i v
  | .syn, 0x108 => s.writeValue i v
  | .syn, 0x178 => s.hostOpWrite i v
  | .txn, 0x138 => s.resolve (fld v 1 0)
  | .mem, 0x100 => s.memCfgWrite i r v
  | .mem, 0x148 => if bitAt v 8 then s.retrainReq i (fld v 4 0) else (cOK, s)
  | .mem, 0x150 => s.retireWrite i (fld v 36 32) (bitAt v 8)
  | .mem, 0x160 => s.maintWrite (bitAt v 0)
  | .tor, 0x150 => if bitAt v 0 then s.torRetrain i else (cOK, s)
  | .pwr, _ => s.pwrWrite page off r v
  | .thm, _ => s.thmWrite page off r v
  | .ras, 0x100 => if i = 0 then s.rasCfgWrite r v else (cOK, s)
  | .ras, 0x138 => if 143 < fld v 7 0 then (cRANGE, s) else if bitAt v 8 then s.retireCoreWrite (fld v 7 0) else (cOK, s)
  | .sht, 0x108 => if bitAt v 0 then s.freezeWrite else (cOK, s)
  | .sec, _ => s.secWrite off r v
  | _, _ => s.storeWrite page off r v

/-- A write of a register that the page serves: a code that refuses it, or OK and the state. -/
def State.serveWrite (s : State) (page off : Nat) (v : Word) : Nat × State :=
  match classify page with
  | none => (cRANGE, s)
  | some (c, i) =>
    match findReg c i off with
    | none => (cRANGE, s)
    | some r =>
      match off with
      | 0x018 => s.ctlWrite c i page v
      | 0x030 => (cOK, s.clearEvents page v)
      | 0x040 => (cOK, s.maskWrite c i page v)
      | 0x048 => s.injectWrite c i page v
      | _ => if off < 0x100 then (cOK, s) else s.blockWrite c i page off r v

/-- A register write is served or refused by its page; a refused doorbell raises QERR (R407). -/
def State.writeReg (s : State) (page off : Nat) (v : Word) (src : Src) : State :=
  let eff := s.serveWrite page off v
  let bell := decide (page = pCFE1) && (s.pageCode page off).isNone && eff.1 != cOK && decide (0x100 ≤ off)
  (if bell then s.raise pCFE 1 else s).answerWrite page off src eff

/-! ## The rows -/

/-- A register write by the host, a program or Keyhole. -/
def State.writeRow (s : State) (page off : Nat) (v : Word) (src : Src) : Res :=
  match src with
  | .host => if s.hostReach then (s.writeReg page off v src).advance else s.done
  | .program n x => happens (s.runs n.val x.val) (s.writeReg page off v src)
  | .keyhole => (s.writeReg page off v src).advance

/-- CTL_ENABLE (R58). -/
def execCtlEnable (page : PageIdx) (src : Src) (s : State) : Res := s.writeRow page.val 0x018 1 src

/-- CTL_CHECK (R58). -/
def execCtlCheck (page : PageIdx) (src : Src) (s : State) : Res := s.writeRow page.val 0x018 2 src

/-- CTL_DISABLE (R62). -/
def execCtlDisable (page : PageIdx) (src : Src) (s : State) : Res := s.writeRow page.val 0x018 0 src

/-- EVT_STATUS_CLEAR (R65, R66). -/
def execEvtStatusClear (page : PageIdx) (ones : Word) (src : Src) (s : State) : Res := s.writeRow page.val 0x030 ones src

/-- EVT_MASK_WRITE (R65). -/
def execEvtMaskWrite (page : PageIdx) (value : Word) (src : Src) (s : State) : Res := s.writeRow page.val 0x040 value src

/-- INJECT (R52, R458). -/
def execInject (page : PageIdx) (value : Word) (src : Src) (s : State) : Res := s.writeRow page.val 0x048 value src

/-- INJ_ALLOW_CLEAR (R458): a write of RAS.CFG whose INJ_ALLOW is 0. -/
def execInjAllowClear (value : Word) (src : Src) (s : State) : Res :=
  wellFormed (!bitAt value 0) (s.writeRow (pRAS 0) 0x100 value src)

/-- REGISTER_WRITE (R53 to R56): `off` counts registers of 8 bytes. -/
def execRegisterWrite (page : PageIdx) (off : Fin 512) (value : Word) (src : Src) (s : State) : Res :=
  s.writeRow page.val (8 * off.val) value src

end Sys2Proof.Machine
end

