-- ==== Sys2Proof/Machine/Keyhole.lean ====
section
/-! DEFINITION. Keyhole, the read-out path through the MSC (R470 to R473, R495), and the SMBus telemetry target
(R510). -/

namespace Sys2Proof.Machine

/-- The MSC answers Keyhole requests. -/
def State.khServed (s : State) : Bool := s.boot.mscUp && decide (1 ≤ s.stage)

/-- A request comes to the MSC: over JTAG, or on port 0 with its link UP from a source that the allow list names (R470). -/
def State.khTakes (s : State) (r : KhReq) : Bool :=
  s.khServed && (match r.via with
    | .jtag => true
    | .udp ip => s.ethLink 0 % 4 == 2 && (s.allowList 0).contains ip.toNat)

/-- A Keyhole response: OP, TAG, ADDR and SESSION echoed. -/
def State.khAnswer (s : State) (op status addr session : Nat) (r : KhReq) (data : List Byte) : State :=
  s.emit (.keyhole op status r.tag addr session data)

/-- A response without data. -/
def State.khStatus (s : State) (op status : Nat) (r : KhReq) : State := s.khAnswer op status r.addr r.session r []

/-- SPACE or LENGTH outside its range (R471). -/
def khBad (r : KhReq) : Bool := decide (4 < r.space) || r.length % 8 != 0 || decide (1024 < r.length)

/-- The session that a request names, when it is open. -/
def State.khSession (s : State) (r : KhReq) : Option Session :=
  match s.shut.session with
  | none => none
  | some k => if k.id = r.session then some k else none

/-! ## A-store sets and raw slices (R472) -/

/-- Array and set that an A-store address names, and the byte offset; none outside. -/
def storeSet (addr limit : Nat) : Option (Nat × Nat × Nat) :=
  let arr := addr / 2 ^ 24
  let set := addr % 2 ^ 24 / 2 ^ 20
  let off := addr % 2 ^ 20
  if 576 ≤ arr ∨ 1 < set ∨ limit ≤ off then none else some (arr, set, off)

/-- Set 0 live or 1 shadow of an array. -/
def Arr.set (a : Arr) (k : Nat) : ASet := if k = 0 then a.live else a.shadow

/-- The array with a set replaced. -/
def Arr.withSet (a : Arr) (k : Nat) (z : ASet) : Arr := if k = 0 then { a with live := z } else { a with shadow := z }

/-- A byte of the A words of a set. -/
def ASet.byte (z : ASet) (off : Nat) : Byte := BitVec.ofNat 8 ((Tab.get z.a 0 (off / 8)).toNat >>> (8 * (off % 8)))

/-- The set with a byte of its A words written. -/
def ASet.putByte (z : ASet) (off : Nat) (b : Byte) : ASet :=
  let lo := 8 * (off % 8)
  { z with a := Tab.set z.a 0 (off / 8) (setFld (Tab.get z.a 0 (off / 8)) (lo + 7) lo b.toNat) }

/-- A byte of the poison plane of a set. -/
def ASet.planeByte (z : ASet) (off : Nat) : Byte :=
  BitVec.ofNat 8 ((List.range 8).map (fun b => if z.poison.contains (8 * off + b) then 2 ^ b else 0)).sum

/-- The set with a byte of its poison plane written. -/
def ASet.putPlane (z : ASet) (off : Nat) (b : Byte) : ASet :=
  { z with poison := (List.range 8).foldl (fun (l : List Nat) (i : Nat) =>
      if b.toNat.testBit i then insSet l (8 * off + i) else delSet l (8 * off + i)) z.poison }

/-- The address range of a raw slice serves as scratch: its mode is scratchpad and the range is outside the tagged
store (R262, R296). -/
def State.rawScratch (s : State) (a : Nat) : Bool := s.placeCode (scratchBase + a) == cOK

/-! ## Addresses of a request -/

/-- The refusal of the address range of a request. -/
def State.khCode (s : State) (r : KhReq) : Nat :=
  let last := r.addr + max r.length 1 - 1
  match r.space with
  | 0 =>
    if r.addr < regBase ∨ regBase + 0x10000000 ≤ last then cRANGE
    else if r.addr % 8 ≠ 0 then cALIGN
    else if listedIn ((r.addr - regBase) / 4096) ((last - regBase) / 4096 + 1) ≠ (last - regBase) / 4096 + 1 - (r.addr - regBase) / 4096 then
      cRANGE
    else cOK
  | 1 =>
    if !s.oneKind r.addr (max r.length 1) then cRANGE
    else if s.placeCode r.addr ≠ cOK then s.placeCode r.addr
    else s.placeCode last
  | 2 => if (storeSet r.addr (2 ^ 20)).isNone || decide (2 ^ 20 < r.addr % 2 ^ 20 + r.length) then cRANGE else cOK
  | 3 => if (storeSet r.addr 16384).isNone || decide (16384 < r.addr % 2 ^ 20 + r.length) then cRANGE else cOK
  | _ => if 32 * 2 ^ 24 ≤ last ∨ r.addr / 2 ^ 24 ≠ last / 2 ^ 24 then cRANGE else cOK

/-! ## Reads -/

/-- Registers of a range, in ascending order. -/
def State.regBytes (s : State) (a len : Nat) : List Byte :=
  (List.range (len / 8)).flatMap (fun (i : Nat) =>
    natLe 8 (s.readReg ((a + 8 * i - regBase) / 4096) ((a + 8 * i) % 4096)).toNat)

/-- The bytes that a read returns, and whether it covers a poisoned line; `g` numbers the free contents of a cache or
tagged store. -/
def State.khData (s : State) (r : KhReq) (g : Nat) : List Byte × Bool :=
  match r.space with
  | 0 => (s.regBytes r.addr r.length, false)
  | 1 => (s.bytes r.addr r.length, (memLines r.addr r.length).any (fun l => s.lineBad l))
  | 2 =>
    (match storeSet r.addr (2 ^ 20) with
    | none => ([], false)
    | some (n, k, off) =>
      let z := (Tab.get s.arrs {} n).set k
      ((List.range r.length).map (fun i => z.byte (off + i)), false))
  | 3 =>
    (match storeSet r.addr 16384 with
    | none => ([], false)
    | some (n, k, off) =>
      let z := (Tab.get s.arrs {} n).set k
      ((List.range r.length).map (fun i => z.planeByte (off + i)), false))
  | _ =>
    let lines := (memLines (scratchBase + r.addr) r.length).filter (fun l => s.rawScratch (l * 64 - scratchBase))
    ((List.range r.length).map (fun i =>
      if s.rawScratch (r.addr + i) then s.mem.byte (scratchBase + r.addr + i) else Config.freeByte g (r.addr + i)),
      lines.any (fun l => s.lineBad l))

/-- An HBM read during a freeze takes the stacks concerned out of self-refresh (R472). -/
def State.wakeStacks (s : State) (r : KhReq) : State :=
  if r.space ≠ 1 ∨ s.live ∨ s.hbmEnd ≤ r.addr then s
  else
    (memLines r.addr r.length).foldl (fun (s : State) (l : Nat) =>
      let i := (s.physMap (l * 64)).1
      s.setStack i { s.stack i with awake := true }) s

/-- A read is answered: with STATUS POISONED when it covers a poisoned line. -/
def State.khReadNow (s : State) (r : KhReq) : State :=
  let d := s.draw
  let x := s.khData r d.1
  (d.2.wakeStacks r).khAnswer 2 (if x.2 then 0x40 else cOK) r.addr r.session r x.1

/-- The code of a read: form, session, token, address. -/
def State.khReadCode (s : State) (r : KhReq) : Nat :=
  if khBad r then cRANGE
  else
    match s.khSession r with
    | none => cSTATE
    | some k => if r.space ≠ 0 ∧ !(k.unlocked && k.rights.testBit 0) then cLOCKED else s.khCode r

/-- KH_READ (R471, R472). -/
def execKhRead (r : KhReq) (s : State) : Res :=
  let c := s.khReadCode r
  wellFormed (r.data == [])
    (if !s.khTakes r then s.done else if c = cOK then (s.khReadNow r).done else (s.khStatus 2 c r).done)

/-! ## Writes -/

/-- Registers of a range are written in ascending order: the first refusal, and the state. -/
def State.writeRegs (s : State) (a : Nat) (ws : List Word) : Nat × State :=
  let step (acc : Nat × Nat × State) (w : Word) : Nat × Nat × State :=
    let page := (acc.1 - regBase) / 4096
    let off := acc.1 % 4096
    let t := acc.2.2
    let code := (match t.pageCode page off with
      | some c => c
      | none => (t.serveWrite page off w).1)
    (acc.1 + 8, if acc.2.1 = cOK then code else acc.2.1, t.writeReg page off w .keyhole)
  let x := ws.foldl step (a, cOK, s)
  (x.2.1, x.2.2)

/-- The 64-bit words of a byte list. -/
def wordsOfBytes (bs : List Byte) : List Word :=
  (List.range (bs.length / 8)).map (fun i => BitVec.ofNat 64 (leNat ((bs.drop (8 * i)).take 8)))

/-- A byte list with the address of each byte. -/
def addressed (a : Nat) (bs : List Byte) : List (Nat × Byte) := (rangeFrom a bs.length).zip bs

/-- A raw write to a slice: scratch takes the bytes; contents of a cache or of the tagged store become undefined. -/
def State.rawWrite (s : State) (a : Nat) (bs : List Byte) : State :=
  let plain := (addressed a bs).filter (fun e => s.rawScratch e.1)
  let s1 := { s with mem := plain.foldl (fun (m : Mem) (e : Nat × Byte) => m.putByte (scratchBase + e.1) e.2) s.mem }
  if plain.length = bs.length then s1
  else
    let d := s1.draw
    let t := d.2.undefine 0 d.2.hbmEnd
    let lost (l : TLine) : Bool := t.homeSlice (l.line * 64) == a / 2 ^ 24
    { t with txn := { t.txn with tagged := t.txn.tagged.map (fun l =>
        if lost l then { l with data := (List.range 64).map (fun i => Config.freeByte d.1 (l.line * 64 + i)) } else l) } }

/-- A write is carried out: the status, and the state. -/
def State.khWriteNow (s : State) (r : KhReq) : Nat × State :=
  match r.space with
  | 0 => s.writeRegs r.addr (wordsOfBytes r.data)
  | 1 => (cOK, s.plainWrite [] r.addr r.data)
  | 2 =>
    (match storeSet r.addr (2 ^ 20) with
    | none => (cRANGE, s)
    | some (n, k, off) =>
      let a : Arr := Tab.get s.arrs {} n
      let z := (addressed off r.data).foldl (fun (z : ASet) (e : Nat × Byte) => z.putByte e.1 e.2) (a.set k)
      (cOK, { s with arrs := Tab.set s.arrs {} n (a.withSet k z) }))
  | 3 =>
    (match storeSet r.addr 16384 with
    | none => (cRANGE, s)
    | some (n, k, off) =>
      let a : Arr := Tab.get s.arrs {} n
      let z := (addressed off r.data).foldl (fun (z : ASet) (e : Nat × Byte) => z.putPlane e.1 e.2) (a.set k)
      (cOK, { s with arrs := Tab.set s.arrs {} n (a.withSet k z) }))
  | _ => (cOK, s.rawWrite r.addr r.data)

/-- The code of a write: form, session, debug freeze, token with the right to write, address. -/
def State.khWriteCode (s : State) (r : KhReq) : Nat :=
  if khBad r then cRANGE
  else
    match s.khSession r with
    | none => cSTATE
    | some k =>
      if s.frozen ≠ 1 then cSTATE else if !(k.unlocked && k.rights.testBit 1) then cLOCKED else s.khCode r

/-- KH_WRITE (R471, R472, R495). -/
def execKhWrite (r : KhReq) (s : State) : Res :=
  let c := s.khWriteCode r
  let w := s.khWriteNow r
  wellFormed (r.data.length == r.length)
    (if !s.khTakes r then s.done
    else if c = cOK then (w.2.khStatus 3 w.1 r).done
    else (s.khStatus 3 c r).done)

/-! ## Sessions (R471, R495) -/

/-- A session opens. -/
def State.openSession (s : State) (unlocked : Bool) (rights : Nat) (r : KhReq) : State :=
  let id := (Config.sessionId s.shut.sessions).toNat + 1
  let s := { s with shut := { s.shut with
    session := some { id := id, unlocked := unlocked, rights := rights }
    sessions := s.shut.sessions + 1 } }
  s.khAnswer 1 cOK (b2n unlocked) id r []

/-- The grant whose code the data match. -/
def State.matchGrant (s : State) (data : List Byte) : Option Grant :=
  match s.sec.grant with
  | none => none
  | some g => if data.length = 32 ∧ sha3 data = g.codeHash then some g else none

/-- A KH_OPEN that no condition refuses: a matching code spends one use of the grant. -/
def State.khOpenNow (s : State) (r : KhReq) : State :=
  if r.data = [] then s.openSession false 0 r
  else
    match s.matchGrant r.data with
    | none => ({ s with shut := { s.shut with badCodes := s.shut.badCodes + 1 } } : State).openSession false 0 r
    | some g =>
      let left : Option Grant := if g.uses ≤ 1 then none else some { g with uses := g.uses - 1 }
      let s := { s with sec := { s.sec with grant := left }, shut := { s.shut with badCodes := 0 } }
      (s.openSession true g.rights r).raise pSEC 4

/-- The code of a KH_OPEN. -/
def State.khOpenCode (s : State) (r : KhReq) : Nat :=
  if khBad r then cRANGE
  else if s.shut.session.isSome then cCONFLICT
  else if r.data ≠ [] ∧ 3 ≤ s.shut.badCodes then cLOCKED
  else cOK

/-- KH_OPEN (R471, R495). -/
def execKhOpen (r : KhReq) (s : State) : Res :=
  let c := s.khOpenCode r
  wellFormed (r.data.length == r.length)
    (if !s.khTakes r then s.done else if c = cOK then (s.khOpenNow r).done else (s.khStatus 1 c r).done)

/-- The code of a request that needs an open session. -/
def State.khPlainCode (s : State) (r : KhReq) : Nat :=
  if khBad r then cRANGE else if (s.khSession r).isNone then cSTATE else cOK

/-- KH_RESUME (R473): of a debug freeze. -/
def execKhResume (r : KhReq) (pinLow : Bool) (s : State) : Res :=
  let c := s.khPlainCode r
  let w := s.resume pinLow none
  if !s.khTakes r then s.done
  else if c ≠ cOK then (s.khStatus 4 c r).done
  else if s.frozen ≠ 1 then (s.khStatus 4 cSTATE r).done
  else (w.2.khStatus 4 w.1 r).advance

/-- KH_RESET (R471): a warm reset by the MSC. -/
def execKhReset (r : KhReq) (s : State) : Res :=
  let c := s.khPlainCode r
  if !s.khTakes r then s.done
  else if c ≠ cOK then (s.khStatus 5 c r).done
  else ((s.khStatus 5 cOK r).warmReset 3).done

/-- KH_CLOSE (R471). -/
def execKhClose (r : KhReq) (s : State) : Res :=
  let c := s.khPlainCode r
  let t : State := { s with shut := { s.shut with session := none } }
  if !s.khTakes r then s.done
  else if c ≠ cOK then (s.khStatus 6 c r).done
  else (t.khStatus 6 cOK r).done

/-- KH_SESSION_TIMEOUT (R471): 60 s without a request. -/
def execKhSessionTimeout (s : State) : Res :=
  occurs (s.shut.session.isSome && s.khServed) { s with shut := { s.shut with session := none } }

/-! ## SMBus telemetry (R510) -/

/-- The hottest valid sensor of the package at its last samples. -/
def State.packageTemp (s : State) : Option Int :=
  let l := (List.range 4).filterMap (fun (d : Nat) => (hottest (Tab.get s.thm.samples [] d)).map (fun m => m.1))
  l.max?

/-- A word that has been measured, or 0xFFFF. -/
def measured (seen : Bool) (v : Nat) : Nat := if seen then v else 0xFFFF

/-- The word of a command. -/
def State.smbusWord (s : State) (cmd : Nat) : Nat :=
  let vin := s.reg (pPWR 32) 0x150
  match cmd with
  | 0x01 => measured (vin != 0) (fld vin 15 0)
  | 0x02 => measured (vin != 0) (fld vin 31 16)
  | 0x03 => measured (vin != 0) (fld vin 47 32)
  | 0x04 =>
    (match s.packageTemp with
    | none => 0xFFFF
    | some t => tempField t)
  | 0x05 =>
    s.stage + 4 * b2n s.board.alert + 8 * b2n s.board.thermtrip + 16 * b2n (!s.live) + 32 * s.rf (pPWR 32) 0x158 2 0
  | 0x06 => s.rf pCFE 0x200 35 32 + 16 * s.rf pCFE 0x200 37 36
  | _ => 0xFFFF

/-- SMBUS_READ_WORD (R510): without VSTBY nobody acknowledges the address. -/
def execSmbusReadWord (cmd : Byte) (s : State) : Res :=
  (s.emit (if s.board.vstby then .smbus (s.smbusWord cmd.toNat) else .smbusNak)).done

end Sys2Proof.Machine
end

