-- ==== Sys2Proof/Machine/Rdma.lean ====
section
/-! DEFINITION. RoCEv2 over the Ethernet ports: operations of remote QPs, connections, congestion, errors, links, and
the responses to what the package sends (R385 to R391, R402, R409, R410). -/

namespace Sys2Proof.Machine

/-! ## Ports and frames (R386, R399, R409, R517) -/

/-- A port takes frames: its link is UP; while the package is frozen only the MSC's port does. -/
def State.portTakes (s : State) (p : Nat) : Bool :=
  s.board.pwrgood && decide (1 ≤ s.stage) && s.ethLink p % 4 == 2 && (s.live || (p == 0 && s.mscPort))

/-- Somebody serves what arrives on a port: its RCE page, or the MSC on port 0. -/
def State.portServes (s : State) (p : Nat) : Bool := s.portTakes p && (s.enabled (pRCE p) || (p == 0 && s.boot.mscUp))

/-- What the receiver of a port counts beside a frame: the symbols that its FEC corrected, and the pause frames that a port
with a priority under PFC sends when its buffers fill; how many there are is open (R385, R387, R409). -/
def State.countLine (s : State) (p : Nat) : State :=
  let none_ := s.rf (pETH p) 0x100 23 16 == 0
  let d := s.draw
  let s := d.2.addReg (pETH p) 0x130 (Config.freeNat d.1)
  if none_ then s
  else
    let d := s.draw
    (d.2.addReg (pETH p) 0x148 (Config.freeNat d.1)).addReg (pETH p) 0x120 (Config.freeNat d.1)

/-- `n` frames arrive on a port; one that an injection spoils is discarded, counted and sent again. -/
def State.receive (s : State) (p n : Nat) : State :=
  (List.range n).foldl (fun (s : State) (_ : Nat) =>
    let a := s.inject (pETH p) 1
    let b := a.2.injectCodewords (pETH p) 2
    let s := b.2.addReg (pETH p) 0x118 1
    let s := if a.1 then (s.addReg (pETH p) 0x128 1).addReg (pETH p) 0x118 1 else s
    let s := if b.1 then ((s.addReg (pETH p) 0x138 1).raise (pETH p) 2).addReg (pETH p) 0x118 1 else s
    s.countLine p) s

/-- What an arrival of `n` frames for a QP does: nothing where nobody takes them or the QP is not there. -/
def State.arrives (s : State) (p qpn n : Nat) (f : State → State) : Res :=
  if !s.portTakes p then s.done
  else
    let t := s.receive p n
    if s.portServes p && s.qpUsable p qpn then (f t).advance else t.done

/-! ## Access (R72, R389, R410) -/

/-- A memory region that a key opens: base, length, and whether the access is allowed. -/
structure Region where
  base : Nat
  len : Nat
  key : Nat
  read : Bool
  write : Bool
  deriving DecidableEq, Repr

/-- The valid regions of a port: those of its page, or Transom with the boot configuration's key (R386). -/
def State.regions (s : State) (p : Nat) : List Region :=
  if s.enabled (pRCE p) then
    ((List.range 16).filter (fun (i : Nat) => bitAt (s.mrKey p i) 34)).map (fun (i : Nat) =>
      { base := (s.reg (pRCE p) (mrOff i)).toNat
        len := (s.reg (pRCE p) (mrOff i + 8)).toNat
        key := fld (s.mrKey p i) 31 0
        read := bitAt (s.mrKey p i) 32
        write := bitAt (s.mrKey p i) 33 })
  else [{ base := regBase, len := 0x10000000, key := s.boot.cfg.key, read := true, write := true }]

/-- The addresses of an operation can be served: whole registers of listed pages, or memory that is there. -/
def State.reachable (s : State) (a n : Nat) : Bool :=
  if regBase ≤ a then
    a % 8 == 0 && n % 8 == 0 && decide (a + n ≤ regBase + 0x10000000) &&
      listedIn ((a - regBase) / 4096) ((a + n + 4095 - regBase) / 4096) ==
        (a + n + 4095 - regBase) / 4096 - (a - regBase) / 4096
  else s.oneKind a (max n 1) && (judged a (max n 1)).all (fun b => s.placeCode b == cOK)

/-- The whole check of an operation. -/
def State.rdmaAllowed (s : State) (p key a n : Nat) (write : Bool) : Bool :=
  (s.regions p).any (fun r => r.key == key && decide (r.base ≤ a ∧ a + n ≤ r.base + r.len) && (if write then r.write else r.read)) &&
    s.reachable a n && !(write && (s.inTable a n || (s.copyAt a n).isSome))

/-- A NAK is sent: 1 Invalid Request, 2 Remote Access Error, 3 Remote Operational Error. -/
def State.rdmaRefuse (s : State) (p qpn why : Nat) : State :=
  ((s.emit (.rdmaNak p qpn why)).addReg (pRCE p) 0x130 1).transmit p 1

/-- An operation is refused: ACCESS. -/
def State.accessNak (s : State) (p qpn : Nat) : State := (s.rdmaRefuse p qpn 2).raise (pRCE p) 2

/-! ## Operations of remote QPs (R73, R389 to R391) -/

/-- A write of a register that orders a warm reset. -/
def State.ordersWarm (s : State) (page off : Nat) (v : Word) : Bool :=
  page == pCFE && off == 0x210 && (s.pageCode pCFE 0x210).isNone && bitAt v 8 && !bitAt v 0 && fld v 23 16 == 0xA5

/-- Registers are written in ascending order; a warm reset that one of them orders is left for after the acknowledgement
(R426). -/
def State.storeRegs (s : State) (a : Nat) (bs : List Byte) : Bool × State :=
  (List.range (bs.length / 8)).foldl (fun (acc : Bool × State) (i : Nat) =>
    let page := (a + 8 * i - regBase) / 4096
    let off := (a + 8 * i) % 4096
    let v : Word := BitVec.ofNat 64 (leNat ((bs.drop (8 * i)).take 8))
    if acc.2.ordersWarm page off v then (true, acc.2) else (acc.1, acc.2.writeReg page off v .host)) (false, s)

/-- A write that the check has passed, and whether it orders a warm reset: none while a line of it must wait. -/
def State.rdmaStore (s : State) (a : Nat) (bs : List Byte) : Option (Bool × State) :=
  if regBase ≤ a then some (s.storeRegs a bs) else (s.wrLines a bs).map (fun r => (false, r.2))

/-- RDMA_WRITE (R72, R73, R389). -/
def execRdmaWrite (port : EthId) (qpn : Nat) (rkey : BitVec 32) (addr : BitVec 48) (data : List Byte) (s : State) : Res :=
  let p := port.val
  let a := addr.toNat
  let t := s.receive p (s.frames p data.length)
  if !s.portTakes p then s.done
  else if !(s.portServes p && s.qpUsable p qpn) then t.done
  else if !s.rdmaAllowed p rkey.toNat a data.length true then (t.accessNak p qpn).advance
  else
    match t.rdmaStore a data with
    | none => .fault .notEnabled
    | some (warm, u) =>
      let u := (u.emit (.rdmaAck p qpn)).transmit p 1
      (if warm then u.warmReset 2 else u).advance

/-- A read that covers a poisoned line: the line is captured when POISON read 0 before, and POISON is raised; the data
before it may have been sent (R391). -/
def State.rdmaPoison (s : State) (p qpn a len : Nat) : State :=
  let line := (a + len) / 64 * 64
  let d := s.draw
  let t := if Config.freeBool d.1 ∧ 0 < len then (d.2.emit (.rdmaReadData p qpn (s.bytes a len))).transmit p (s.frames p len)
    else d.2
  let t := if bitAt (t.reg (pRCE p) 0x030) 1 then t else t.setReg (pRCE p) 0x128 (BitVec.ofNat 64 (2 ^ 63 + line))
  (t.rdmaRefuse p qpn 3).raise (pRCE p) 1

/-- A read that the check has passed. -/
def State.rdmaFetch (s : State) (p qpn a n : Nat) : State :=
  if regBase ≤ a then (s.emit (.rdmaReadData p qpn (s.regBytes a n))).transmit p (s.frames p n)
  else
    let r := s.readClean a n 0
    let t := r.2
    if r.1 < n then t.rdmaPoison p qpn a r.1
    else (t.emit (.rdmaReadData p qpn (t.bytes a n))).transmit p (s.frames p n)

/-- RDMA_READ (R72, R73, R389 to R391): a read of memory waits while its pseudo-channel is in hold or a commit window is open. -/
def execRdmaRead (port : EthId) (qpn : Nat) (rkey : BitVec 32) (addr : BitVec 48) (len : Nat) (s : State) : Res :=
  let ok := s.rdmaAllowed port.val rkey.toNat addr.toNat len false
  if s.portServes port.val && s.qpUsable port.val qpn && ok && decide (addr.toNat < regBase) && s.memWaits addr.toNat len then
    .fault .notEnabled
  else
    s.arrives port.val qpn 1 (fun t =>
      if ok then t.rdmaFetch port.val qpn addr.toNat len else t.accessNak port.val qpn)

/-- SEND_REJECT (R388). -/
def execSendReject (port : EthId) (qpn : Nat) (s : State) : Res :=
  s.arrives port.val qpn 1 (fun t => t.rdmaRefuse port.val qpn 1)

/-- RDMA_ATOMIC_REJECT (R72, R388, R389): no access bit allows an atomic. -/
def execRdmaAtomicReject (port : EthId) (qpn : Nat) (s : State) : Res :=
  s.arrives port.val qpn 1 (fun t => t.accessNak port.val qpn)

/-! ## Connections (R388) -/

/-- A source may connect: the allow list has it; without a boot configuration the MSC lets any source in (log 62). -/
def State.mayConnect (s : State) (p ip : Nat) : Bool :=
  (s.allowList p).contains ip || (!s.enabled (pRCE p) && s.boot.cfg.open_)

/-- A request is accepted: the QP with the retry count that CM negotiated, and the most QPs since reset. -/
def State.connect (s : State) (p ip qpn retries : Nat) : State :=
  let fresh : Qp := { port := p, qpn := qpn, ip := ip, retries := retries }
  let others := s.qps.filter (fun (q : Qp) => !(q.port == p && q.qpn == qpn))
  let s := { s with qps := others ++ [fresh] }
  let s := s.setRf (pRCE p) 0x120 26 16 (max (s.qpCount p) (s.rf (pRCE p) 0x120 26 16))
  ((s.emit (.cmAccept p qpn)).transmit p 1).flushRecs

/-- CM_REQUEST (R388). -/
def execCmRequest (port : EthId) (ip : BitVec 128) (req : CmReq) (s : State) : Res :=
  let p := port.val
  let qpn := req.qpn
  let t := s.receive p 1
  wellFormed (decide (qpn < 2 ^ 24))
    (if !s.portTakes p then s.done
    else if !s.portServes p then t.done
    else if !s.mayConnect p ip.toNat then (((t.emit (.cmReject p false)).transmit p 1).raise (pRCE p) 3).advance
    else if 1024 ≤ s.qpCount p then ((t.emit (.cmReject p true)).transmit p 1).done
    else if s.qpUsable p qpn then .fault .notEnabled
    else (t.connect p ip.toNat qpn req.retries.val).advance)

/-! ## Congestion (R387) -/

/-- CNP (R387): the rate halves, down to 1 % of the port rate. -/
def execCnp (port : EthId) (qpn : Nat) (s : State) : Res :=
  s.arrives port.val qpn 1 (fun t => t.mapQp port.val qpn (fun k => { k with rate := max (1 / 100) (k.rate / 2) }))

/-- ECN_MARK (R387): answered by a CNP, at most once per CNP_INTERVAL_US; `us` have passed since the last. -/
def execEcnMark (port : EthId) (qpn : Nat) (usSinceLast : Nat) (s : State) : Res :=
  let p := port.val
  let on := bitAt (s.reg (pRCE p) 0x100) 8 && decide (s.rf (pRCE p) 0x100 31 16 ≤ usSinceLast)
  s.arrives p qpn 1 (fun t => if on then (t.emit (.cnp p qpn)).transmit p 1 else t)

/-- RATE_RECOVER (R387): by 5 % of the port rate. -/
def execRateRecover (port : EthId) (qpn : Nat) (s : State) : Res :=
  occurs (s.live && s.qpUsable port.val qpn)
    (s.mapQp port.val qpn (fun k => { k with rate := min 1 (k.rate + 1 / 20) }))

/-! ## Errors and links (R385, R388, R409) -/

/-- Messages outstanding on a QP, and the frames they take: a retransmission sends them again. -/
def State.outstanding (s : State) (k : Qp) : Nat :=
  (k.posts.map (fun m => if m.dest.isSome then 1 else s.frames k.port m.bytes)).sum +
    (s.hcq.unacked.filter (fun r => r.port == k.port && r.qpn == k.qpn)).length

/-- QP_ERR (R388, R396, R402): nothing has answered what is outstanding in as many retries as CM negotiated. -/
def execQpErr (port : EthId) (qpn : Nat) (s : State) : Res :=
  match s.findQp port.val qpn with
  | none => .fault .notEnabled
  | some k =>
    happens (s.live && !k.err && s.outstanding k != 0 && k.retries == k.tries)
      ((s.breakQp port.val qpn).raise (pRCE port.val) 0)

/-- A mode that a port may come UP in: MODE, or by negotiation a slower one of the same medium (R385). -/
def State.modeOk (s : State) (p m : Nat) : Bool :=
  let cfg := s.rf (pETH p) 0x100 2 0
  if s.rf (pETH p) 0x100 8 8 = 0 then m == cfg
  else decide (cfg ≤ m) && m % 2 == cfg % 2 && (p == 0 || decide (m < 4))

/-- ETH_LINK_UP (R385). -/
def execEthLinkUp (port : EthId) (mode : Fin 6) (s : State) : Res :=
  let p := port.val
  happens (s.enabled (pETH p) && s.live && s.ethLink p % 4 != 2 && s.modeOk p mode.val)
    ((s.setReg (pETH p) 0x108 (BitVec.ofNat 64 (mode.val * 16 + 2))).raise (pETH p) 0)

/-- ETH_LINK_DOWN (R409): the port trains anew. -/
def execEthLinkDown (port : EthId) (s : State) : Res :=
  let p := port.val
  happens (s.enabled (pETH p) && s.ethLink p % 4 == 2) ((s.setReg (pETH p) 0x108 1).raise (pETH p) 1)

/-- ETH_FCS_ERR (R409): the frame is discarded and counted. -/
def execEthFcsErr (port : EthId) (kind : EthErr) (s : State) : Res :=
  let p := port.val
  let t := s.addReg (pETH p) 0x118 1
  if !s.portTakes p then s.done
  else
    match kind with
    | .fcs => (t.addReg (pETH p) 0x128 1).done
    | .fecUncorrectable => ((t.addReg (pETH p) 0x138 1).raise (pETH p) 2).advance

/-- PFC_PAUSE (R387): the frame is counted; with PFC on its priority the pause delays what the port sends there, and without it
has no effect, so that only timing depends on PFC_EN. -/
def execPfcPause (port : EthId) (_prio : Fin 8) (s : State) : Res :=
  let p := port.val
  if !s.portTakes p then s.done else ((s.receive p 1).addReg (pETH p) 0x140 1).advance

/-! ## Responses to the device (R388, R402, R485) -/

/-- Bytes of a command's transfer have been acknowledged; an ATTEST whose report has been completes (R485). -/
def State.moveBytes (s : State) (q n : Nat) : State :=
  let s := s.mapCmd q (fun c => { c with moved := c.moved + n })
  match (s.queue q).cur with
  | none => s
  | some c => if fld c.desc.w0 7 0 = 0x0C ∧ c.moved = c.total then s.completeCmd q cOK 0 c.total else s

/-- The messages of a QP change, and what answers it restarts its retry count. -/
def State.setPosts (s : State) (p qpn : Nat) (posts : List Post) : State :=
  s.mapQp p qpn (fun k => { k with
    posts := posts
    tries := 0 })

/-- The oldest write of a QP has been acknowledged. -/
def State.ackWrite (s : State) (p qpn : Nat) (k : Qp) : Option State :=
  (k.posts.find? (fun m => m.dest.isNone)).map (fun m => (s.setPosts p qpn (k.posts.erase m)).moveBytes m.queue m.bytes)

/-- A read takes `len` bytes of its data. -/
def Post.took (m : Post) (len : Nat) : Post := { m with
  bytes := m.bytes - len
  dest := m.dest.map (fun a => a + len) }

/-- Data of the oldest read of a QP arrive: none while they must wait or where nothing asked for them. -/
def State.takeData (s : State) (p qpn : Nat) (k : Qp) (data : List Byte) : Option State :=
  let len := data.length
  match k.posts.find? (fun m => m.dest.isSome) with
  | none => none
  | some m =>
    if len = 0 ∨ m.bytes < len then none
    else
      (match s.wrLines (m.dest.getD 0) data with
      | none => none
      | some (c, t) =>
        let rest := if len = m.bytes then k.posts.erase m else k.posts.replace m (m.took len)
        some (if c = cOK then (t.setPosts p qpn rest).moveBytes m.queue len
          else (t.setPosts p qpn (k.posts.filter (fun e => e.queue != m.queue))).endMove m.queue c))

/-- The remote side refuses the oldest message that is outstanding: its command ends with RANGE. -/
def State.remoteNak (s : State) (p qpn : Nat) (k : Qp) : Option State :=
  k.posts.head?.map (fun m => (s.setPosts p qpn (k.posts.filter (fun e => e.queue != m.queue))).endMove m.queue cRANGE)

/-- What a response does; none where nothing is outstanding that it could answer. -/
def State.takeResponse (s : State) (p qpn : Nat) (r : RdmaResp) : Option State :=
  match s.findQp p qpn with
  | none => none
  | some k =>
    match r with
    | .ack => s.ackWrite p qpn k
    | .nakAccess => s.remoteNak p qpn k
    | .readData data => s.takeData p qpn k data

/-- RDMA_RESPONSE (R402). -/
def execRdmaResponse (port : EthId) (qpn : Nat) (r : RdmaResp) (s : State) : Res :=
  let p := port.val
  if !s.portTakes p then s.done
  else if !(s.portServes p && s.qpUsable p qpn) then (s.receive p 1).done
  else
    match (s.receive p 1).takeResponse p qpn r with
    | none => .fault .notEnabled
    | some t => t.advance

/-- ROCE_RETRY_TIMEOUT (R388): while retries are left, everything outstanding is sent again. -/
def execRoceRetryTimeout (port : EthId) (qpn : Nat) (s : State) : Res :=
  match s.findQp port.val qpn with
  | none => .fault .notEnabled
  | some k =>
    let n := s.outstanding k
    occurs (s.live && !k.err && n != 0 && decide (k.tries < k.retries))
      (((s.addReg (pRCE port.val) 0x138 1).transmit port.val n).mapQp port.val qpn (fun k => { k with tries := k.tries + 1 }))

end Sys2Proof.Machine
end

