-- ==== Sys2Proof/Machine/Program.lean ====
section
/-! DEFINITION. Loads and stores of programs, and the halt of a context (R42, R67, R121, R132, R248, R399, R518). -/

namespace Sys2Proof.Machine

/-- Widths of a program load or store. -/
def loadWidths : List Nat := [1, 2, 4, 8, 16]

/-- The refusal of an access: an address that is nothing, what is not in service, an alignment (R42, R418, R518). -/
def State.accessCode (s : State) (a n : Nat) (load : Bool) : Nat :=
  match s.place a with
  | .register page _ =>
    if (classify page).isNone then cRANGE
    else if n = 8 ∧ a % 8 = 0 then cOK
    else if n = 16 ∧ a % 16 = 0 ∧ load then cOK
    else cALIGN
  | _ =>
    let c := s.placeCode a
    if c ≠ cOK then c else if a % n ≠ 0 then cALIGN else cOK

/-- A refused access faults its context; the next instruction to decode is the one that follows. -/
def State.faultAccess (s : State) (n x cls code npc : Nat) : State :=
  (s.faultStore n x cls code).setRf (pCOR n) (corOff x 0x08) 47 0 npc

/-- The instruction is decoded: SHT.TRIG may freeze before it takes effect, an injected parity fault strikes the core;
else `f` is its effect (R474, R517). -/
def State.decodeAccess (s : State) (n x : Nat) (f : State → Res) : Res :=
  let t := s.trigDecode n x (s.ctxPc n x)
  let r := s.inject (pCOR n) 2
  if !s.runs n x then .fault .notEnabled
  else if !t.live then t.done
  else if r.1 then (r.2.coreFault n true).advance
  else f r.2

/-- The bytes that a load returns, and whether it covers a poisoned line (R263, R314). -/
def State.loadData (s : State) (n x a len : Nat) : List Byte × Bool × State :=
  match s.place a with
  | .register page off =>
    ((List.range (len / 8)).flatMap (fun i => natLe 8 (s.readReg page (off + 8 * i)).toNat), false, s)
  | .store _ _ => (s.bytes a len, s.lineBad (a / 64), s)
  | _ =>
    let view := (s.ctx n x).txn
    let t := (s.readReq a len (some 1)).2
    (t.seen view a len, t.seenBad view (a / 64), t)

/-- A load that no condition refuses. -/
def State.loadNow (s : State) (core : CoreId) (ctx : CtxId) (a len npc : Nat) : State :=
  let n := core.val
  let x := ctx.val
  let r := s.loadData n x a len
  if r.2.1 then
    (r.2.2.faultCtx n x { unit := 8, cls := 0x40, code := 0x40, pc := s.ctxPc n x }).setRf (pCOR n) (corOff x 0x08) 47 0 npc
  else (r.2.2.emit (.loaded core ctx r.1)).setRf (pCOR n) (corOff x 0x08) 47 0 npc

/-- PROGRAM_LOAD (R42, R67, R518). -/
def execProgramLoad (core : CoreId) (ctx : CtxId) (addr : BitVec 48) (bytes : Nat) (npc : BitVec 48) (s : State) : Res :=
  let a := addr.toNat
  wellFormed (loadWidths.contains bytes)
    (if s.inHold a || s.closing a bytes then .fault .notEnabled
    else s.decodeAccess core.val ctx.val (fun t =>
      let c := t.accessCode a bytes true
      if c ≠ cOK then (t.faultAccess core.val ctx.val 0x21 c npc.toNat).advance
      else (t.loadNow core ctx a bytes npc.toNat).advance))

/-- A store to register space: its page serves it or refuses it; a store that resets the package leaves the context
IDLE. -/
def State.storeReg (s : State) (core : CoreId) (ctx : CtxId) (a : Nat) (data : List Byte) (npc : Nat) : State :=
  let t := s.writeReg ((a - regBase) / 4096) ((a - regBase) % 4096) (BitVec.ofNat 64 (leNat data)) (.program core ctx)
  if t.ctxState core.val ctx.val = 0 then t else t.setRf (pCOR core.val) (corOff ctx.val 0x08) 47 0 npc

/-- A store to memory: none while it must wait (R120, R260, R265 to R267). -/
def State.storeMem (s : State) (n x a : Nat) (data : List Byte) (npc : Nat) : Option State :=
  (s.ctxWrite n x (s.ctx n x).txn a data false).map (fun r =>
    if r.1 = cOK then r.2.setRf (pCOR n) (corOff x 0x08) 47 0 npc else r.2.faultAccess n x 0x21 r.1 npc)

/-- PROGRAM_STORE (R42, R121, R518). -/
def execProgramStore (core : CoreId) (ctx : CtxId) (addr : BitVec 48) (data : List Byte) (npc : BitVec 48) (s : State) : Res :=
  let a := addr.toNat
  let n := core.val
  let x := ctx.val
  wellFormed (loadWidths.contains data.length)
    (s.decodeAccess n x (fun t =>
      let c := t.accessCode a data.length false
      if c ≠ cOK then (t.faultAccess n x 0x21 c npc.toNat).advance
      else if regBase ≤ a then (t.storeReg core ctx a data npc.toNat).advance
      else
        match t.storeMem n x a data npc.toNat with
        | none => .fault .notEnabled
        | some u => u.advance))

/-- A context halts: its pending wait is withdrawn, HALT is raised; the job ends when it was the last (R248, R399). -/
def State.haltCtx (s : State) (n x : Nat) : State :=
  (((s.dropWait n x).setCtxState n x 2).raise (pCOR n) (2 + x)).jobEnd

/-- HALT (R399). -/
def execHalt (core : CoreId) (ctx : CtxId) (s : State) : Res :=
  s.decodeAccess core.val ctx.val (fun t => (t.haltCtx core.val ctx.val).advance)

end Sys2Proof.Machine
end

