-- ==== Sys2Proof/Machine/Retrain.lean ====
section
/-! DEFINITION. What waited at a controller is served: after a hold, a retirement, a commit window, a write-back
(R298, R299, R316, R319). -/

namespace Sys2Proof.Machine

/-! ## Requests that waited -/

/-- A DMA instruction in progress, by its number. -/
def State.jobOf (s : State) (n x seq : Nat) : Option DmaJob :=
  (s.core n).dma.find? (fun j => j.ctx == x && j.ins.seq == seq)

/-- A piece of a DMA instruction that no longer waits at a controller. -/
def State.pieceFree (s : State) (n x seq : Nat) : State := s.mapJob n x seq (fun j => { j with open_ := j.open_ - 1 })

/-- The outcome of a piece: a code ends the instruction. -/
def State.pieceDone (n : Nat) (j : DmaJob) (r : Nat × Nat × State) : State :=
  if r.2.1 = cOK then r.2.2 else r.2.2.dmaEnd n j.ctx j.ins r.1 r.2.1

/-- A piece whose write side must wait is kept by the engine, and counts as open. -/
def State.park (s : State) (n : Nat) (j : DmaJob) (data : List Byte) (bad : Bool) : State :=
  s.mapJob n j.ctx j.ins.seq (fun k => { k with
    open_ := k.open_ + 1
    parked := k.parked ++ [(j.row, j.byte, data, bad)] })

/-- The read side of a waiting piece is served: the write side follows, or is kept. -/
def State.serveRead (s : State) (n x seq row byte : Nat) : State :=
  match s.jobOf n x seq with
  | none => s
  | some j =>
    let s := s.pieceFree n x seq
    let j := { j with
      row := row
      byte := byte }
    let a := (s.gaddr j.ins.desc.w1).loc + row * fld j.ins.desc.w4 31 0 + byte
    let len := s.pieceLen j
    let r := s.copyRead n j a len
    match r.2.2.dmaDeliver n j r.1 r.2.1 with
    | none => r.2.2.park n j r.1 r.2.1
    | some t => State.pieceDone n j t

/-- The write side of a waiting piece is served, or kept by the engine. -/
def State.serveDmaWrite (s : State) (n x seq row byte : Nat) (data : List Byte) (bad : Bool) : State :=
  match s.jobOf n x seq with
  | none => s
  | some j =>
    let s := s.pieceFree n x seq
    let j := { j with
      row := row
      byte := byte }
    match s.dmaDeliver n j data bad with
    | none => s.park n j data bad
    | some t => State.pieceDone n j t

/-- A waiting request of a command is served: none while it must wait on. -/
def State.serveCmd (s : State) (c : Instr) : Option State :=
  match c with
  | .memoryRead by_ addr bytes cls hit ecc => if s.closing addr.toNat bytes then none else some (s.readNow by_ addr.toNat bytes cls.val hit ecc)
  | .memoryWrite by_ addr data => if s.closing addr.toNat data.length then none else s.writeNow by_ addr.toNat data
  | .memoryAtomic by_ addr op operand ord fetch =>
    if s.closing addr.toNat (aopWidth op.val) then none else some (s.atomicNow by_ addr.toNat op.val operand.toNat ord fetch)
  | .wr p => s.serveWr p
  | .rd p => s.serveRd p
  | .aop p => if s.closing (pktAddr p) (aopWidth (fld p.w2 63 60)) then none else some (s.serveAop p)
  | _ => some s

/-- A waiting request is served: none while it must wait on. -/
def State.serveHeld (s : State) (h : Held) : Option State :=
  match h with
  | .cmd c => s.serveCmd c
  | .dmaRead n x seq row byte => some (s.serveRead n x seq row byte)
  | .dmaWrite n x seq row byte data bad => some (s.serveDmaWrite n x seq row byte data bad)
  | .dmaAtom n x seq =>
    match s.jobOf n x seq with
    | none => some s
    | some j =>
      let a := (s.gaddr j.ins.desc.w2).loc
      if s.closing a 8 then none else some (State.pieceDone n j ((s.pieceFree n x seq).atomNow n j a (dmaRet j.ins.desc)))

/-- A request of the queue cannot be served yet: its pseudo-channel is in hold, or an earlier one to its line waits on. -/
def State.staysHeld (s : State) (kept : List MemReq) (r : MemReq) : Bool :=
  s.inHold (r.line * 64) || kept.any (fun k => k.line == r.line)

/-- At most `n` requests of the queue of a controller are served in its order; `kept` are those that wait on. -/
def State.serveQueue (s : State) (i n : Nat) (kept : List MemReq) : State :=
  let back (s : State) : State := (s.setStack i { s.stack i with waiting := kept ++ (s.stack i).waiting }).inflightRegs i 0 0
  match n with
  | 0 => back s
  | m + 1 =>
    match s.nextHeld i with
    | none => back s
    | some (r, _) =>
      let s := s.setStack i { s.stack i with waiting := (s.stack i).waiting.erase r }
      if s.staysHeld kept r then s.serveQueue i m (kept ++ [r])
      else
        match s.serveHeld r.what with
        | none => s.serveQueue i m (kept ++ [r])
        | some t => t.serveQueue i m kept

/-- The queue of a controller is served as far as it can be. -/
def State.serveWaiting (s : State) (i : Nat) : State :=
  if (s.stack i).waiting = [] then s else s.serveQueue i (s.stack i).waiting.length []

/-- The queues of all controllers are served as far as they can be. -/
def State.serveAllWaiting (s : State) : State := (List.range 20).foldl (fun (s : State) (i : Nat) => s.serveWaiting i) s

/-! ## The end of a hold (R316) and of a retirement (R319) -/

/-- RETRAIN_TRAINED (R316 step 6): the queued requests are served, then the next hold of the stack starts. -/
def execRetrainTrained (stack : StackId) (us : Nat) (s : State) : Res :=
  let i := stack.val
  let k := s.stack i
  match k.hold with
  | none => .fault .notEnabled
  | some c =>
    let t := s.setStack i { k with
      hold := none
      ceRetrain := Tab.set k.ceRetrain 0 c 0 }
    let t := (t.noteHold i us).setRf (pMEM i) 0x140 47 32 (t.rf (pMEM i) 0x140 47 32 + 1)
    wellFormed (decide (us ≤ 40)) (happens (s.live && s.holdDrained i c) (((t.retrainRegs i).serveWaiting i).startHold i))

/-- RETRAIN_HOLD_TIMEOUT (R316, R320): retired or fenced, the pseudo-channel lets the queued requests go. -/
def execRetrainHoldTimeout (stack : StackId) (s : State) : Res :=
  let i := stack.val
  let k := s.stack i
  match k.hold with
  | none => .fault .notEnabled
  | some c =>
    let t := ((s.setStack i { k with hold := none }).noteHold i 40).raise (pMEM i) 1
    let t := if t.mayRetire i then
        let u := t.beginRetire i c
        u.setStack i { u.stack i with lost := insSet (u.stack i).lost c }
      else t.fencePch i c
    happens (s.live && s.holdDrained i c) (((t.retrainRegs i).serveWaiting i).startHold i)


/-- RETIRE_DONE (R319): `bad` are the granules that were uncorrectable during the copy. -/
def execRetireDone (stack : StackId) (bad : List (Fin 9437184)) (s : State) : Res :=
  let i := stack.val
  let k := s.stack i
  match k.retiring with
  | none => .fault .notEnabled
  | some c =>
    let t := bad.foldl (fun (s : State) (g : Fin 9437184) =>
      if g.val < s.granules then s.poisonGranule (s.granuleAddr i c g.val) else s) s
    let t := t.setStack i { t.stack i with
      retiring := none
      copied := 0
      pend := delSet k.pend c
      go := delSet k.go c
      hold := if k.hold = some c then none else k.hold }
    let t := (t.setRf (pMEM i) 0x158 c c 1).setRf (pMEM i) 0x150 1 0 2
    happens s.live (((((t.retrainRegs i).raise (pMEM i) 4).addSparePch (32 * i + c)).serveWaiting i).startHold i)

/-! ## The end of a commit window, and write-backs (R265, R273) -/

/-- COMMIT_WINDOW_CLOSE (R273): what waited for the window goes on. -/
def execCommitWindowClose (txn : Nat) (s : State) : Res :=
  match s.findTxn txn with
  | none => .fault .notEnabled
  | some t => happens (s.live && t.state == 3) ((s.closeWindow txn).serveAllWaiting)

/-- TAGGED_LINE_WRITEBACK (R265). -/
def execTaggedLineWriteback (line : BitVec 42) (s : State) : Res :=
  match s.taggedAt line.toNat with
  | none => .fault .notEnabled
  | some l =>
    happens (s.live && l.owner.isNone)
      ({ s with txn := { s.txn with tagged := s.txn.tagged.filter (fun k => k.line != line.toNat) } } : State).txnRegs

end Sys2Proof.Machine
end

