-- ==== Sys2Proof/Machine/Dispatch.lean ====
section
/-! DEFINITION. The meaning of each command: one arm per row of the table of operations and events. -/

namespace Sys2Proof.Machine

def exec (i : Instr) (s : State) : Host.Outcome State Fault Refusal :=
  match i with
  | .powerGood => Sys2Proof.Machine.execPowerGood s
  | .resetN => Sys2Proof.Machine.execResetN s
  | .strapSample x y z profile boot => Sys2Proof.Machine.execStrapSample x y z profile boot s
  | .pwrgoodFall => Sys2Proof.Machine.execPwrgoodFall s
  | .vstbyLoss => Sys2Proof.Machine.execVstbyLoss s
  | .vinUv => Sys2Proof.Machine.execVinUv s
  | .vinOv => Sys2Proof.Machine.execVinOv s
  | .ivrOc island => Sys2Proof.Machine.execIvrOc island s
  | .powerStopClear => Sys2Proof.Machine.execPowerStopClear s
  | .stageS1 ms => Sys2Proof.Machine.execStageS1 ms s
  | .stageS2 ms noVolt => Sys2Proof.Machine.execStageS2 ms noVolt s
  | .ucieTrainTimeout link => Sys2Proof.Machine.execUcieTrainTimeout link s
  | .hbmTrainTimeout stack => Sys2Proof.Machine.execHbmTrainTimeout stack s
  | .stageS3 ms noVolt => Sys2Proof.Machine.execStageS3 ms noVolt s
  | .crossingFilled die xing => Sys2Proof.Machine.execCrossingFilled die xing s
  | .startTick port => Sys2Proof.Machine.execStartTick port s
  | .datapathRelease die xing => Sys2Proof.Machine.execDatapathRelease die xing s
  | .crossingTimeout die xing => Sys2Proof.Machine.execCrossingTimeout die xing s
  | .recoveryDatagram offset data => Sys2Proof.Machine.execRecoveryDatagram offset data s
  | .linkSignalDetect port lane => Sys2Proof.Machine.execLinkSignalDetect port lane s
  | .laneLock port lane => Sys2Proof.Machine.execLaneLock port lane s
  | .laneLockTimeout port => Sys2Proof.Machine.execLaneLockTimeout port s
  | .trainingRecord port r => Sys2Proof.Machine.execTrainingRecord port r s
  | .linkUp port => Sys2Proof.Machine.execLinkUp port s
  | .torRetrainReq port src => Sys2Proof.Machine.execTorRetrainReq port src s
  | .linkPacketReceive port seq crcOk corrected uncorrectable p => Sys2Proof.Machine.execLinkPacketReceive port seq crcOk corrected uncorrectable p s
  | .linkAck port seq => Sys2Proof.Machine.execLinkAck port seq s
  | .linkNak port expected => Sys2Proof.Machine.execLinkNak port expected s
  | .replayTimeout port => Sys2Proof.Machine.execReplayTimeout port s
  | .packetForward slot die vc => Sys2Proof.Machine.execPacketForward slot die vc s
  | .packetDepart port vc => Sys2Proof.Machine.execPacketDepart port vc s
  | .creditReturn port vc units => Sys2Proof.Machine.execCreditReturn port vc units s
  | .wr p => Sys2Proof.Machine.execWr p s
  | .rd p => Sys2Proof.Machine.execRd p s
  | .aop p => Sys2Proof.Machine.execAop p s
  | .sync p => Sys2Proof.Machine.execSync p s
  | .ack p => Sys2Proof.Machine.execAck p s
  | .rdata p => Sys2Proof.Machine.execRdata p s
  | .aresp p => Sys2Proof.Machine.execAresp p s
  | .nak p => Sys2Proof.Machine.execNak p s
  | .coll die axis p => Sys2Proof.Machine.execColl die axis p s
  | .mgmt p => Sys2Proof.Machine.execMgmt p s
  | .tsig x => Sys2Proof.Machine.execTsig x s
  | .twait x => Sys2Proof.Machine.execTwait x s
  | .pput x => Sys2Proof.Machine.execPput x s
  | .ptake x => Sys2Proof.Machine.execPtake x s
  | .sown x => Sys2Proof.Machine.execSown x s
  | .sdrop x => Sys2Proof.Machine.execSdrop x s
  | .watchRequest die => Sys2Proof.Machine.execWatchRequest die s
  | .wake w => Sys2Proof.Machine.execWake w s
  | .cancel die c => Sys2Proof.Machine.execCancel die c s
  | .watchTimeout core ctx => Sys2Proof.Machine.execWatchTimeout core ctx s
  | .engineSignal core => Sys2Proof.Machine.execEngineSignal core s
  | .synHostAdd inst index amount => Sys2Proof.Machine.execSynHostAdd inst index amount s
  | .synHostPut inst index amount => Sys2Proof.Machine.execSynHostPut inst index amount s
  | .synHostRelease inst kind index => Sys2Proof.Machine.execSynHostRelease inst kind index s
  | .synSelWrite inst value src => Sys2Proof.Machine.execSynSelWrite inst value src s
  | .synValueWrite inst value => Sys2Proof.Machine.execSynValueWrite inst value s
  | .lendOffer island => Sys2Proof.Machine.execLendOffer island s
  | .matrixInstruction x => Sys2Proof.Machine.execMatrixInstruction x s
  | .runRelease core ctx => Sys2Proof.Machine.execRunRelease core ctx s
  | .runEnd core ctx => Sys2Proof.Machine.execRunEnd core ctx s
  | .poisonedLine core ctx line => Sys2Proof.Machine.execPoisonedLine core ctx line s
  | .quant x => Sys2Proof.Machine.execQuant x s
  | .qdrain x => Sys2Proof.Machine.execQdrain x s
  | .qntRelease core ctx => Sys2Proof.Machine.execQntRelease core ctx s
  | .qntComplete core => Sys2Proof.Machine.execQntComplete core s
  | .vadd x => Sys2Proof.Machine.execVadd x s
  | .vsub x => Sys2Proof.Machine.execVsub x s
  | .vmul x => Sys2Proof.Machine.execVmul x s
  | .vfma x => Sys2Proof.Machine.execVfma x s
  | .vdiv x => Sys2Proof.Machine.execVdiv x s
  | .vmax x => Sys2Proof.Machine.execVmax x s
  | .vmin x => Sys2Proof.Machine.execVmin x s
  | .vconv x => Sys2Proof.Machine.execVconv x s
  | .vexp x => Sys2Proof.Machine.execVexp x s
  | .vrcp x => Sys2Proof.Machine.execVrcp x s
  | .vrsq x => Sys2Proof.Machine.execVrsq x s
  | .vlog x => Sys2Proof.Machine.execVlog x s
  | .vrsum x => Sys2Proof.Machine.execVrsum x s
  | .vrdot x => Sys2Proof.Machine.execVrdot x s
  | .vrmax x => Sys2Proof.Machine.execVrmax x s
  | .vrmin x => Sys2Proof.Machine.execVrmin x s
  | .lutb x => Sys2Proof.Machine.execLutb x s
  | .vdrain x => Sys2Proof.Machine.execVdrain x s
  | .vopt x => Sys2Proof.Machine.execVopt x s
  | .vdice x => Sys2Proof.Machine.execVdice x s
  | .vecRelease core ctx => Sys2Proof.Machine.execVecRelease core ctx s
  | .vecComplete core => Sys2Proof.Machine.execVecComplete core s
  | .dcopy x => Sys2Proof.Machine.execDcopy x s
  | .datom x => Sys2Proof.Machine.execDatom x s
  | .dmaLineRequest core ctx => Sys2Proof.Machine.execDmaLineRequest core ctx s
  | .dmaComplete core ctx => Sys2Proof.Machine.execDmaComplete core ctx s
  | .programLoad core ctx addr bytes npc => Sys2Proof.Machine.execProgramLoad core ctx addr bytes npc s
  | .programStore core ctx addr data npc => Sys2Proof.Machine.execProgramStore core ctx addr data npc s
  | .memoryRead by_ addr bytes cls hit ecc => Sys2Proof.Machine.execMemoryRead by_ addr bytes cls hit ecc s
  | .memoryWrite by_ addr data => Sys2Proof.Machine.execMemoryWrite by_ addr data s
  | .memoryAtomic by_ addr op operand ord fetch => Sys2Proof.Machine.execMemoryAtomic by_ addr op operand ord fetch s
  | .wcbSectorLeave stack why ecc => Sys2Proof.Machine.execWcbSectorLeave stack why ecc s
  | .scrubRead stack pch granule eccs => Sys2Proof.Machine.execScrubRead stack pch granule eccs s
  | .severityPoll stack severity pch => Sys2Proof.Machine.execSeverityPoll stack severity pch s
  | .phyDriftEval stack pch alarm => Sys2Proof.Machine.execPhyDriftEval stack pch alarm s
  | .retrainReq stack pch src => Sys2Proof.Machine.execRetrainReq stack pch src s
  | .retrainTrained stack us => Sys2Proof.Machine.execRetrainTrained stack us s
  | .retrainHoldTimeout stack => Sys2Proof.Machine.execRetrainHoldTimeout stack s
  | .retrainForced stack pch => Sys2Proof.Machine.execRetrainForced stack pch s
  | .fencedRetry stack pch trained => Sys2Proof.Machine.execFencedRetry stack pch trained s
  | .maint src => Sys2Proof.Machine.execMaint src s
  | .retire stack pch src => Sys2Proof.Machine.execRetire stack pch src s
  | .retireDone stack bad => Sys2Proof.Machine.execRetireDone stack bad s
  | .txb x => Sys2Proof.Machine.execTxb x s
  | .txo x => Sys2Proof.Machine.execTxo x s
  | .txc x => Sys2Proof.Machine.execTxc x s
  | .txa x => Sys2Proof.Machine.execTxa x s
  | .txe x => Sys2Proof.Machine.execTxe x s
  | .taggedWrite core ctx addr data => Sys2Proof.Machine.execTaggedWrite core ctx addr data s
  | .commitWindowClose txn => Sys2Proof.Machine.execCommitWindowClose txn s
  | .resolve v src => Sys2Proof.Machine.execResolve v src s
  | .allreduce x => Sys2Proof.Machine.execAllreduce x s
  | .reducescatter x => Sys2Proof.Machine.execReducescatter x s
  | .allgather x => Sys2Proof.Machine.execAllgather x s
  | .broadcast x => Sys2Proof.Machine.execBroadcast x s
  | .collectiveStart die axis => Sys2Proof.Machine.execCollectiveStart die axis s
  | .collectiveComplete die axis => Sys2Proof.Machine.execCollectiveComplete die axis s
  | .collectiveTimeout die axis => Sys2Proof.Machine.execCollectiveTimeout die axis s
  | .verdictReductionComplete => Sys2Proof.Machine.execVerdictReductionComplete s
  | .stepLogAck => Sys2Proof.Machine.execStepLogAck s
  | .bar port => Sys2Proof.Machine.execBar port s
  | .barrierRelease => Sys2Proof.Machine.execBarrierRelease s
  | .barTimeout => Sys2Proof.Machine.execBarTimeout s
  | .paceWindow steps => Sys2Proof.Machine.execPaceWindow steps s
  | .stepEnd src => Sys2Proof.Machine.execStepEnd src s
  | .verdictSet bits src => Sys2Proof.Machine.execVerdictSet bits src s
  | .evalStart src => Sys2Proof.Machine.execEvalStart src s
  | .evalEnd src => Sys2Proof.Machine.execEvalEnd src s
  | .doorbell q tail src => Sys2Proof.Machine.execDoorbell q tail src s
  | .commandFetch q => Sys2Proof.Machine.execCommandFetch q s
  | .queueEnable q value src => Sys2Proof.Machine.execQueueEnable q value src s
  | .queueDisable q value src => Sys2Proof.Machine.execQueueDisable q value src s
  | .nop q => Sys2Proof.Machine.execNop q s
  | .negotiate q => Sys2Proof.Machine.execNegotiate q s
  | .load q => Sys2Proof.Machine.execLoad q s
  | .unload q => Sys2Proof.Machine.execUnload q s
  | .start q => Sys2Proof.Machine.execStart q s
  | .stop q => Sys2Proof.Machine.execStop q s
  | .preempt q => Sys2Proof.Machine.execPreempt q s
  | .resume q => Sys2Proof.Machine.execResume q s
  | .stepCommit q => Sys2Proof.Machine.execStepCommit q s
  | .xfer q => Sys2Proof.Machine.execXfer q s
  | .xferComplete q => Sys2Proof.Machine.execXferComplete q s
  | .snapshot q => Sys2Proof.Machine.execSnapshot q s
  | .pinRelease q => Sys2Proof.Machine.execPinRelease q s
  | .attest q => Sys2Proof.Machine.execAttest q s
  | .recordWriteAck dseq => Sys2Proof.Machine.execRecordWriteAck dseq s
  | .rdmaWrite port qpn rkey addr data => Sys2Proof.Machine.execRdmaWrite port qpn rkey addr data s
  | .rdmaRead port qpn rkey addr len => Sys2Proof.Machine.execRdmaRead port qpn rkey addr len s
  | .sendReject port qpn => Sys2Proof.Machine.execSendReject port qpn s
  | .rdmaAtomicReject port qpn => Sys2Proof.Machine.execRdmaAtomicReject port qpn s
  | .cmRequest port ip req => Sys2Proof.Machine.execCmRequest port ip req s
  | .cnp port qpn => Sys2Proof.Machine.execCnp port qpn s
  | .ecnMark port qpn usSinceLast => Sys2Proof.Machine.execEcnMark port qpn usSinceLast s
  | .rateRecover port qpn => Sys2Proof.Machine.execRateRecover port qpn s
  | .qpErr port qpn => Sys2Proof.Machine.execQpErr port qpn s
  | .ethLinkUp port mode => Sys2Proof.Machine.execEthLinkUp port mode s
  | .powerWindow mv deciAmp watt joule => Sys2Proof.Machine.execPowerWindow mv deciAmp watt joule s
  | .thermalSample die sensors => Sys2Proof.Machine.execThermalSample die sensors s
  | .rampTokenGrant island => Sys2Proof.Machine.execRampTokenGrant island s
  | .rampEnd island => Sys2Proof.Machine.execRampEnd island s
  | .envHoldExpiry island => Sys2Proof.Machine.execEnvHoldExpiry island s
  | .ctlEnable page src => Sys2Proof.Machine.execCtlEnable page src s
  | .ctlCheck page src => Sys2Proof.Machine.execCtlCheck page src s
  | .ctlDisable page src => Sys2Proof.Machine.execCtlDisable page src s
  | .evtStatusClear page ones src => Sys2Proof.Machine.execEvtStatusClear page ones src s
  | .evtMaskWrite page value src => Sys2Proof.Machine.execEvtMaskWrite page value src s
  | .inject page value src => Sys2Proof.Machine.execInject page value src s
  | .injAllowClear value src => Sys2Proof.Machine.execInjAllowClear value src s
  | .registerWrite page off value src => Sys2Proof.Machine.execRegisterWrite page off value src s
  | .bootGo src => Sys2Proof.Machine.execBootGo src s
  | .warm confirm go src => Sys2Proof.Machine.execWarm confirm go src s
  | .coreReset core src => Sys2Proof.Machine.execCoreReset core src s
  | .handshakeTimeout u => Sys2Proof.Machine.execHandshakeTimeout u s
  | .issueParity core => Sys2Proof.Machine.execIssueParity core s
  | .fabricParity die cluster => Sys2Proof.Machine.execFabricParity die cluster s
  | .ucieRetryExhausted side => Sys2Proof.Machine.execUcieRetryExhausted side s
  | .crossingOverflow die xing => Sys2Proof.Machine.execCrossingOverflow die xing s
  | .sequencerWatchdog => Sys2Proof.Machine.execSequencerWatchdog s
  | .mscWdog => Sys2Proof.Machine.execMscWdog s
  | .fatalHoldExpiry => Sys2Proof.Machine.execFatalHoldExpiry s
  | .retireCore core src => Sys2Proof.Machine.execRetireCore core src s
  | .shutterN => Sys2Proof.Machine.execShutterN s
  | .freeze src => Sys2Proof.Machine.execFreeze src s
  | .frz port scope kind origin seq => Sys2Proof.Machine.execFrz port scope kind origin seq s
  | .res port origin seq pinLow => Sys2Proof.Machine.execRes port origin seq pinLow s
  | .khOpen r => Sys2Proof.Machine.execKhOpen r s
  | .khRead r => Sys2Proof.Machine.execKhRead r s
  | .khWrite r => Sys2Proof.Machine.execKhWrite r s
  | .khResume r pinLow => Sys2Proof.Machine.execKhResume r pinLow s
  | .khReset r => Sys2Proof.Machine.execKhReset r s
  | .khClose r => Sys2Proof.Machine.execKhClose r s
  | .khSessionTimeout => Sys2Proof.Machine.execKhSessionTimeout s
  | .secStage kind chunk bytes src => Sys2Proof.Machine.execSecStage kind chunk bytes src s
  | .secVerify kind chunk bytes go src => Sys2Proof.Machine.execSecVerify kind chunk bytes go src s
  | .stageComplete => Sys2Proof.Machine.execStageComplete s
  | .activate kind src => Sys2Proof.Machine.execActivate kind src s
  | .confirm kind src => Sys2Proof.Machine.execConfirm kind src s
  | .burn kind src => Sys2Proof.Machine.execBurn kind src s
  | .smbusReadWord cmd => Sys2Proof.Machine.execSmbusReadWord cmd s
  | .halt core ctx => Sys2Proof.Machine.execHalt core ctx s
  | .vstbyGood => Sys2Proof.Machine.execVstbyGood s
  | .ethLinkDown port => Sys2Proof.Machine.execEthLinkDown port s
  | .ethFcsErr port kind => Sys2Proof.Machine.execEthFcsErr port kind s
  | .pfcPause port prio => Sys2Proof.Machine.execPfcPause port prio s
  | .rdmaResponse port qpn r => Sys2Proof.Machine.execRdmaResponse port qpn r s
  | .roceRetryTimeout port qpn => Sys2Proof.Machine.execRoceRetryTimeout port qpn s
  | .selfRefreshReturn stack => Sys2Proof.Machine.execSelfRefreshReturn stack s
  | .stationaryUnpin core ctx => Sys2Proof.Machine.execStationaryUnpin core ctx s
  | .taggedLineWriteback line => Sys2Proof.Machine.execTaggedLineWriteback line s

end Sys2Proof.Machine
end

