-- ==== Sys2Proof/Safety.lean ====
section
/-! DEFINITION. What counts as a safe run: the command takes effect, and the state keeps its canonical
form. -/

namespace Sys2Proof

open Sys2Proof.Machine

/-- The invariant of every run: the register table, the memory and the tables of the units are in canonical form
(keys rising, nothing listed that reads as it would unlisted), so that two states that hold the same contents are
the same data. -/
def Safety.Inv (s : State) : Prop := Regs.wf s.regs = true ∧ Memory.wf s.mem = true ∧ Tables.wf s = true

/-- The command takes effect: it neither faults nor is refused. -/
def Safety.Completes (c : Instr) (s : State) : Prop := ∃ t, exec c s = .next t

/-- A run of steps from `s`, each of which takes effect. -/
def Safety.Run (s : State) (n : Nat) (t : State) : Prop :=
  match n with
  | 0 => t = s
  | k + 1 => ∃ u, Sys2Proof.Machine.step s = .next u ∧ Safety.Run u k t

/-- A register that raising an event may write: EVT_STATUS and EVT_COUNT of any page; of the CFE the job state, the record
counters and the pointers of the record rings; of the Shutter its state and counters; and what the freeze of a matching
SHT.TRIG writes elsewhere: MEM.RETRAIN of a stack; and the frames that an Ethernet port has sent. -/
def Safety.EventReg (page off : Nat) : Bool :=
  off == 0x030 || off == 0x038 ||
    (page == pCFE && (off == 0x100 || off == 0x128 || off == 0x130 || off == 0x150 || off == 0x158 ||
      (decide (0x400 ≤ off) && off % 0x40 == 0x28))) ||
    (page == pSHT && (off == 0x110 || off == 0x128)) ||
    (off == 0x120 && decide (0x5000 ≤ page ∧ page < 0x5004)) ||
    (off == 0x140 && decide (0x3000 ≤ page ∧ page < 0x3014))

/-- A write to a register reaches its page, and the page serves writes at that offset. -/
def Safety.Served (s : State) (page off : Nat) (src : Src) : Prop := s.reaches src = true ∧ s.pageCode page off = none

/-- The issue unit decodes an instruction of a class: its context runs, the queue of the class has room, and no injected
parity fault strikes. -/
def Safety.Decodes (s : State) (i : Issue) (cls : Nat) : Prop :=
  s.canDecode i.core.val i.ctx.val cls = true ∧ (s.inject (pCOR i.core.val) 2).1 = false

/-- What decoding an instruction into its class queue leaves: the context's PC is the address of the next instruction, the
instruction is the last of its queue with the next place in program order, nothing of the context that is in flight, no
other context and no byte of memory has changed, nor an array, a sync object, a transaction, or a register but PC and those that
events write. -/
def Safety.Decoded (s u : State) (i : Issue) (cls : Nat) : Prop :=
  let n := i.core.val
  let x := i.ctx.val
  u.ctxPc n x = i.npc.toNat ∧ u.mem = s.mem ∧ u.arrs = s.arrs ∧ u.sync = s.sync ∧ u.txn = s.txn ∧
    (∀ p o, o < 4096 → Safety.EventReg p o = false → (p, o) ≠ (pCOR n, corOff x 0x08) → u.reg p o = s.reg p o) ∧
    (u.ctx n x).fly = (s.ctx n x).fly ∧ (∀ m y, y < 2 → (m, y) ≠ (n, x) → u.ctx m y = s.ctx m y) ∧
    ∃ j : Ins, (u.ctx n x).queue = (s.ctx n x).queue ++ [j] ∧ (u.ctx n x).nseq = (s.ctx n x).nseq + 1 ∧
      j.desc = i.desc ∧ j.cls = cls ∧ j.op = fld i.desc.w0 7 0 ∧ j.pc = s.ctxPc n x ∧ j.seq = (s.ctx n x).nseq

/-- The commands that take place only while the clockless stages of the package run (R466): instructions and their engines, programs,
memory requests, controllers, transactions, collectives, steps, host queues, sync units, packet service and their timers. -/
def Safety.Clocked : Instr → Bool
  | .lendOffer .. | .envHoldExpiry .. | .tsig .. | .twait .. | .pput .. | .ptake .. | .sown .. | .sdrop .. | .sync .. => true
  | .watchRequest .. | .wake .. | .cancel .. | .watchTimeout .. | .engineSignal .. => true
  | .matrixInstruction .. | .runRelease .. | .runEnd .. | .stationaryUnpin .. | .poisonedLine .. => true
  | .quant .. | .qdrain .. | .qntRelease .. | .qntComplete .. => true
  | .vadd .. | .vsub .. | .vmul .. | .vfma .. | .vdiv .. | .vmax .. | .vmin .. | .vconv .. | .vexp .. | .vrcp .. => true
  | .vrsq .. | .vlog .. | .vrsum .. | .vrdot .. | .vrmax .. | .vrmin .. | .lutb .. | .vdrain .. | .vopt .. | .vdice .. => true
  | .vecRelease .. | .vecComplete .. | .dcopy .. | .datom .. | .dmaLineRequest .. | .dmaComplete .. => true
  | .programLoad .. | .programStore .. | .halt .. | .memoryRead .. | .memoryWrite .. | .memoryAtomic .. => true
  | .scrubRead .. | .severityPoll .. | .phyDriftEval .. | .retrainTrained .. | .retrainHoldTimeout .. => true
  | .retrainForced .. | .fencedRetry .. | .retireDone .. => true
  | .txb .. | .txo .. | .txc .. | .txa .. | .txe .. | .taggedWrite .. | .commitWindowClose .. | .taggedLineWriteback .. => true
  | .allreduce .. | .reducescatter .. | .allgather .. | .broadcast .. | .coll .. | .collectiveStart .. => true
  | .collectiveComplete .. | .collectiveTimeout .. | .verdictReductionComplete | .stepLogAck | .bar .. | .barrierRelease => true
  | .barTimeout | .paceWindow .. | .commandFetch .. | .nop .. | .negotiate .. | .load .. | .unload .. | .start .. => true
  | .stop .. | .preempt .. | .resume .. | .stepCommit .. | .xfer .. | .xferComplete .. | .snapshot .. | .pinRelease .. => true
  | .attest .. | .recordWriteAck .. | .rateRecover .. | .qpErr .. | .roceRetryTimeout .. | .ethLinkUp .. => true
  | .wr .. | .rd .. | .aop .. | .ack .. | .rdata .. | .aresp .. | .nak .. | .replayTimeout .. => true
  | .startTick none | .datapathRelease .. | .handshakeTimeout .. | .issueParity .. | .sequencerWatchdog => true
  | _ => false

end Sys2Proof
end

