-- ==== Sys2Proof/Certificates/Slice0/Obligations.lean ====
section
/-! DEFINITION. The statements for the provers: what the commands do, what the shared operations do, and what
holds of every step. -/

open Sys2Proof Sys2Proof.Machine

/-! ## The machine -/

/-- One step takes the command at the front of the queue: it is `exec` of that command on the state whose queue is the
rest. With no command waiting the block idles: nothing changes (the model's own, entry 1 of the log). -/
def Obligations.StepTakesTheFrontCommand : Prop :=
  (∀ (s : State) (c : Instr) (r : List Instr), s.pending = c :: r →
     Sys2Proof.Machine.step s = exec c { s with pending := r }) ∧
  (∀ s : State, s.pending = [] → Sys2Proof.Machine.step s = .next s)

/-- The state after reset is in canonical form. -/
def Obligations.ResetIsCanonical : Prop := Safety.Inv State.reset

/-- Every step from a state in canonical form that answers a next state answers one in canonical form: register table,
memory and poison list nothing that reads as it would unlisted, and their keys rise. -/
def Obligations.StepKeepsCanonicalForm : Prop :=
  ∀ s t : State, Safety.Inv s → Sys2Proof.Machine.step s = .next t → Safety.Inv t

/-- Two states in canonical form whose registers all read alike hold the same register table, and two whose sync objects all
read alike the same objects: in canonical form equal contents are equal data. -/
def Obligations.CanonicalFormIsUnique : Prop :=
  ∀ s t : State, Safety.Inv s → Safety.Inv t →
    ((∀ k, Tab.get s.regs (resetVal k) k = Tab.get t.regs (resetVal k) k) → s.regs = t.regs) ∧
    ((∀ k, Tab.get s.sync.objs {} k = Tab.get t.sync.objs {} k) → s.sync.objs = t.sync.objs)

/-! ## Control pages -/

/-- CTL_ENABLE, CTL_CHECK, CTL_DISABLE, EVT_STATUS_CLEAR, EVT_MASK_WRITE, INJECT, INJ_ALLOW_CLEAR and REGISTER_WRITE: a
write that reaches the package, whoever makes it, completes; its page serves or refuses it as `State.writeReg` says. -/
def Obligations.RegisterRowsComplete : Prop :=
  ∀ (s : State) (p : PageIdx) (v : Word) (src : Src), s.reaches src = true →
    exec (.ctlEnable p src) s = .next (s.writeReg p.val 0x018 1 src).progress.settle ∧
    exec (.ctlCheck p src) s = .next (s.writeReg p.val 0x018 2 src).progress.settle ∧
    exec (.ctlDisable p src) s = .next (s.writeReg p.val 0x018 0 src).progress.settle ∧
    exec (.evtStatusClear p v src) s = .next (s.writeReg p.val 0x030 v src).progress.settle ∧
    exec (.evtMaskWrite p v src) s = .next (s.writeReg p.val 0x040 v src).progress.settle ∧
    exec (.inject p v src) s = .next (s.writeReg p.val 0x048 v src).progress.settle ∧
    (bitAt v 0 = false → exec (.injAllowClear v src) s = .next (s.writeReg (pRAS 0) 0x100 v src).progress.settle) ∧
    ∀ off : Fin 512, exec (.registerWrite p off v src) s = .next (s.writeReg p.val (8 * off.val) v src).progress.settle

/-- R56: a read of a reserved offset of a listed page returns 0. A write to a reserved offset is refused with RANGE, and
REASON records the offset (SOURCE 3); nothing else changes. Made by a program, the refused store also faults its context, with
the same code. A page whose block is not powered answers so too (R418 locks its registers, not its reserved offsets). -/
def Obligations.ReservedOffsets : Prop :=
  ∀ (s : State) (page off : Nat) (c : Cls) (i : Nat) (v : Word), classify page = some (c, i) → findReg c i off = none →
    s.readReg page off = 0 ∧
    s.writeReg page off v .host = s.setReason page off cRANGE 3 ∧
    s.writeReg page off v .keyhole = s.setReason page off cRANGE 3 ∧
    ∀ (n : CoreId) (x : CtxId), s.writeReg page off v (.program n x) =
      (s.setReason page off cRANGE 3).faultStore n.val x.val c.code cRANGE

/-- R54: a write that is refused, for any code, changes no field of the register: REASON of the page records the offset and
the code with SOURCE 3, and no other register and no memory changes (the host's write, on a page with no doorbell). -/
def Obligations.RefusedWriteChangesOnlyReason : Prop :=
  ∀ (s : State) (page off : Nat) (v : Word), Regs.wf s.regs = true → page ≠ pCFE1 → off < 4096 → (classify page).isSome = true →
    s.pageCode page off = none → (s.serveWrite page off v).1 ≠ cOK →
      let t := s.writeReg page off v .host
      t.reg page 0x028 = BitVec.ofNat 64 (off * 2 ^ 32 + 3 * 2 ^ 24 + (s.serveWrite page off v).1) ∧
      (∀ p o, o < 4096 → (p, o) ≠ (page, 0x028) → t.reg p o = s.reg p o) ∧ t.mem = s.mem

/-- R58: a write of ENABLE = 1 to a held or free page that is disabled runs the enable check. Passed, ENABLE reads 1 and REASON
holds OK with SOURCE 1; failed, ENABLE stays 0 and REASON receives the code and offset with SOURCE 1. A write with CHECK = 1 runs
the same check, records its outcome with SOURCE 2, and changes nothing else. No program faults for a failed check. -/
def Obligations.EnableCheckDecides : Prop :=
  ∀ (s : State) (page : Nat) (c : Cls) (i : Nat) (src : Src), Safety.Inv s → classify page = some (c, i) → 2 ≤ c.enableKind →
    (s.enabled page = false → s.enableCheck c i page = none →
      (s.writeReg page 0x018 1 src).enabled page = true ∧
      (s.writeReg page 0x018 1 src).reg page 0x028 = BitVec.ofNat 64 (2 ^ 24)) ∧
    (∀ f, s.enabled page = false → s.enableCheck c i page = some f →
      s.writeReg page 0x018 1 src = s.setReason page f.2 f.1 1 ∧ (s.writeReg page 0x018 1 src).enabled page = false) ∧
    (s.enableCheck c i page = none → s.writeReg page 0x018 2 src = s.setReason page 0 cOK 2) ∧
    (∀ f, s.enableCheck c i page = some f → s.writeReg page 0x018 2 src = s.setReason page f.2 f.1 2)

/-- R62: a write of ENABLE = 1 to a held or free page that is enabled has no effect. A write of ENABLE = 0 is refused with RANGE
on a page of kind none, with LOCKED on one of kind fixed, with STATE on a held page while the job is RUNNING, PREEMPTED or
STOPPING (but on TOR pages in no state); otherwise the page is disabled and REASON stands. -/
def Obligations.DisableByKind : Prop :=
  ∀ (s : State) (page : Nat) (c : Cls) (i : Nat), Safety.Inv s → classify page = some (c, i) →
    (2 ≤ c.enableKind → s.enabled page = true → s.writeReg page 0x018 1 .host = s) ∧
    (c.enableKind = 0 → s.writeReg page 0x018 0 .host = s.setReason page 0x018 cRANGE 3) ∧
    (c.enableKind = 1 → s.writeReg page 0x018 0 .host = s.setReason page 0x018 cLOCKED 3) ∧
    (c.enableKind = 2 → c ≠ .tor → s.jobBusy = true → s.writeReg page 0x018 0 .host = s.setReason page 0x018 cSTATE 3) ∧
    (2 ≤ c.enableKind → (c.enableKind = 2 → c ≠ .tor → s.jobBusy = false) →
      (s.writeReg page 0x018 0 .host).enabled page = false ∧
      (s.writeReg page 0x018 0 .host).reg page 0x028 = s.reg page 0x028)

/-- R52: a write of INJECT with a non-zero MODE is refused with RANGE for MODE 3, MODE 2 with PERIOD 0 or a POINT that the class
does not define, otherwise with LOCKED when injection is not permitted. A write with MODE 0 is never refused: it stores POINT and
PERIOD and disarms. A one-shot injection clears ARMED when it fires. -/
def Obligations.InjectWriteJudged : Prop :=
  ∀ (s : State) (page : Nat) (c : Cls) (i : Nat) (v : Word) (src : Src), Safety.Inv s → classify page = some (c, i) →
    (findReg c i 0x048).isSome = true →
    let mode := fld v 1 0
    let bad := mode = 3 ∨ (mode = 2 ∧ fld v 39 16 = 0) ∨ (mode ≠ 0 ∧ injectPoint c i (fld v 15 8) = false)
    (mode ≠ 0 → bad → s.writeReg page 0x048 v src = s.refuseWrite page 0x048 cRANGE src) ∧
    (mode ≠ 0 → ¬bad → bitAt (s.reg (pRAS 0) 0x100) 0 = false →
      s.writeReg page 0x048 v src = s.refuseWrite page 0x048 cLOCKED src) ∧
    (mode = 0 → let t := s.writeReg page 0x048 v src
      t.rf page 0x048 39 16 = fld v 39 16 ∧ t.rf page 0x048 15 8 = fld v 15 8 ∧ t.rf page 0x048 1 0 = 0 ∧
      bitAt (t.reg page 0x050) 0 = false ∧ t.reg page 0x028 = s.reg page 0x028) ∧
    (∀ pt, s.rf page 0x048 1 0 = 1 → s.rf page 0x048 15 8 = pt → bitAt (s.reg page 0x050) 0 = true →
      (s.inject page pt).1 = true ∧ bitAt ((s.inject page pt).2.reg page 0x050) 0 = false)

/-- R459: a one-shot injection takes effect at the first occurrence of its point; a periodic one at every PERIOD-th, counted
from the write: an occurrence at which `k` have passed takes effect exactly when PERIOD divides `k + 1`. FIRED advances with
each, and an occurrence of another point, or with nothing armed, changes nothing. -/
def Obligations.InjectionFires : Prop :=
  ∀ (s : State) (page pt : Nat), Safety.Inv s →
    ((s.rf page 0x048 15 8 ≠ pt ∨ bitAt (s.reg page 0x050) 0 = false) → s.inject page pt = (false, s)) ∧
    (s.rf page 0x048 15 8 = pt → bitAt (s.reg page 0x050) 0 = true → s.rf page 0x048 1 0 = 1 →
      (s.inject page pt).1 = true ∧
      (s.inject page pt).2.rf page 0x050 47 16 = (s.rf page 0x050 47 16 + 1) % 2 ^ 32) ∧
    (s.rf page 0x048 15 8 = pt → bitAt (s.reg page 0x050) 0 = true → 2 ≤ s.rf page 0x048 1 0 →
      let k := Tab.get s.inj 0 page
      let d := s.rf page 0x048 39 16
      (s.inject page pt).1 = decide ((k + 1) % d = 0) ∧
      Tab.get (s.inject page pt).2.inj 0 page = (if (k + 1) % d = 0 then 0 else k + 1) ∧
      (s.inject page pt).2.rf page 0x050 47 16 = (if (k + 1) % d = 0 then (s.rf page 0x050 47 16 + 1) % 2 ^ 32
        else s.rf page 0x050 47 16) ∧
      bitAt ((s.inject page pt).2.reg page 0x050) 0 = true)

/-- R65: when an event is set its bit of EVT_STATUS becomes 1 and EVT_COUNT advances by 1, masked or not and even if the bit was
1 already; no other bit of EVT_STATUS, no memory and no register that events do not touch changes (the event pages of the CFE
and the Shutter apart, whose own events may follow). -/
def Obligations.EventIsSetAndCounted : Prop :=
  ∀ (s : State) (page bit : Nat), Safety.Inv s → page ≠ pCFE → page ≠ pSHT → bit < 64 →
    let t := s.raise page bit
    bitAt (t.reg page 0x030) bit = true ∧ t.reg page 0x038 = s.reg page 0x038 + 1 ∧
    (∀ b, b < 64 → b ≠ bit → bitAt (t.reg page 0x030) b = bitAt (s.reg page 0x030) b) ∧ t.mem = s.mem ∧
    ∀ p o, o < 4096 → Safety.EventReg p o = false → t.reg p o = s.reg p o

/-- R53, R65: a write of EVT_STATUS clears exactly the bits written as 1; a write of EVT_MASK takes the defined bits, and where it
unmasks no bit that is set, nothing is reported and nothing else changes. -/
def Obligations.EventRegistersWritten : Prop :=
  ∀ (s : State) (page : Nat) (c : Cls) (i : Nat) (v : Word), Safety.Inv s → classify page = some (c, i) →
    (findReg c i 0x030).isSome = true → (findReg c i 0x040).isSome = true →
    s.writeReg page 0x030 v .host = s.setReg page 0x030 (s.reg page 0x030 &&& ~~~v) ∧
    (s.reg page 0x030 &&& s.reg page 0x040 &&& ~~~v = 0 →
      s.writeReg page 0x040 v .host = s.setReg page 0x040 (v &&& BitVec.ofNat 64 (2 ^ eventBits c i - 1)))

/-! ## Synchronisation -/

/-- R236: a tally with value v has reached target t exactly when v - t, modulo 2^64 and read as two's complement, is not
negative. An addition that carries past 2^64 - 1 leaves the value modulo 2^64 and sets the object's WRAP bit, which no addition
clears; a host write of the value does. An addition changes neither memory nor another object of the unit. -/
def Obligations.TallyReachedAndWrap : Prop :=
  (∀ v t : BitVec 64, reached v.toNat t.toNat = decide (0 ≤ (v - t).toInt)) ∧
  (∀ (s : State) (unit idx amount : Nat) (a : Signaller), Safety.Inv s → unit < 148 → idx < 8192 →
    s.orphaned unit 0 idx = false →
    let o := s.obj unit 0 idx
    let t := (s.addTally unit idx amount a).2
    (s.addTally unit idx amount a).1 = cOK ∧ (t.obj unit 0 idx).value = (o.value + amount) % 2 ^ 64 ∧
    (t.obj unit 0 idx).wrap = (o.wrap || decide (2 ^ 64 ≤ o.value + amount)) ∧ t.mem = s.mem ∧
    ∀ k j, k < 2 → j < 8192 → (k, j) ≠ (0, idx) → t.obj unit k j = s.obj unit k j) ∧
  (∀ (s : State) (unit : Nat) (v : Word), Safety.Inv s → s.jobBusy = false → (s.synSel unit).1 = 0 →
    (s.writeValue unit v).1 = cOK ∧
    ((s.writeValue unit v).2.obj unit 0 (s.synSel unit).2).value = v.toNat ∧
    ((s.writeValue unit v).2.obj unit 0 (s.synSel unit).2).wrap = false)

/-- R239: the takers of a pool are served strictly in their order, each while the value that remains covers its COUNT; the
first that it does not cover holds back every taker behind it. What is taken and what is left make up the value. -/
def Obligations.PoolServesInOrder : Prop :=
  ∀ (v : Nat) (ws : List Waiter),
    let r := servePool v ws
    r.2.1 ++ r.2.2 = ws ∧ r.1 + (r.2.1.map (fun w => w.amount)).sum = v ∧
    (∀ w, r.2.2.head? = some w → r.1 < w.amount) ∧
    ∀ k, (∀ j, j ≤ k → j ≤ ws.length → ((ws.take j).map (fun w => w.amount)).sum ≤ v) → k ≤ ws.length → k ≤ r.2.1.length

/-- TSIG, TWAIT, PPUT, PTAKE, SOWN and SDROP: where the issue unit decodes the row's own descriptor and no check refuses it,
the instruction enters the sync queue of its context, from which the package releases it (R118, R240). -/
def Obligations.SyncInstructionsDecode : Prop :=
  ∀ (s : State) (i : Issue) (c : Issue → Instr) (op : Nat),
    (c, op) ∈ [(Instr.tsig, 0x50), (Instr.twait, 0x51), (Instr.pput, 0x52), (Instr.ptake, 0x53), (Instr.sown, 0x54),
      (Instr.sdrop, 0x55)] →
    Safety.Inv s → fld i.desc.w0 7 0 = op → Safety.Decodes s i 4 → s.syncRefusal i.core.val i.ctx.val i.desc = none →
    ∃ u, exec (c i) s = .next u.progress.settle ∧ Safety.Decoded s u i 4

/-- WATCH_REQUEST, WAKE, CANCEL, WATCH_TIMEOUT, ENGINE_SIGNAL and SYNC (R234, R243 to R245, R333, R519): in a running package, where
what they take waits for them, they complete: the request, the wake, the cancel, the wait, the signal or the packet leaves its
place and is served by the operation named. SYN_HOST_ADD, SYN_HOST_PUT, SYN_HOST_RELEASE, SYN_SEL_WRITE and SYN_VALUE_WRITE
(R247, R256): outside a fixed-order run, where the page serves the write, the object exists, the amount is in range and the object
is not orphaned, they complete: the addition reaches the object, the release frees it, SEL takes its bits, a value write sets the
value and clears WRAP of a tally. -/
def Obligations.SyncRows : Prop :=
  (∀ s : State, s.live = true →
     (∀ (d : DieId) (r : SyncReq), s.nextReq d.val = some r → exec (.watchRequest d) s = .next (s.serveWatch r).settle) ∧
     (∀ w : WakeMsg, w ∈ s.sync.wakes → exec (.wake w) s =
       .next (({ s with sync := { s.sync with wakes := s.sync.wakes.erase w } } : State).deliverWake w).progress.settle) ∧
     (∀ (w : WakeMsg) (p : Packet), w ∉ s.sync.wakes → s.wakePacket w = some p →
       exec (.wake w) s = .next ((s.takeArrival p).deliverWake w).progress.settle) ∧
     (∀ (d : DieId) (c : CancelMsg), (d.val, c) ∈ s.sync.cancels →
       s.sync.reqs.all (fun r => !(r.die == d.val && r.node == c.node && r.core == c.core && r.ctx == c.ctx && r.tag == c.tag)) →
       let r := ({ s with sync := { s.sync with cancels := s.sync.cancels.erase (d.val, c) } } : State).freeWatch
         (144 + d.val) c.node c.core c.ctx c.tag
       exec (.cancel d c) s =
         .next ((if r.1 && !c.gone then r.2.timedOut (144 + d.val) else r.2).answerCancel d.val c r.1).settle) ∧
     (∀ (n : CoreId) (x : CtxId) (w : WaitSt), (s.ctx n.val x.val).wait = some w → w.timed = true → w.isWait = true →
       w.cancelled = false → s.ctxState n.val x.val = 1 →
       exec (.watchTimeout n x) s = .next (s.expireWait n.val x.val w).progress.settle) ∧
     (∀ (n : CoreId) (g : Signal), s.sync.signals.find? (fun g => g.core == n.val) = some g → exec (.engineSignal n) s =
       .next (({ s with sync := { s.sync with signals := s.sync.signals.erase g } } : State).applySignal g).settle)) ∧
  (∀ (s : State) (p : Packet), s.live = true → pktOk 0x04 1 1 p = true →
     exec (.sync p) s = .next ((s.takeArrival p).takeSync p (s.arrivalSlot p)).progress.settle) ∧
  (∀ (s : State) (u : Fin 148) (k : Fin 8192) (n : BitVec 32), s.hostReach = true → s.pageCode (pSYN u.val) 0x178 = none →
     (s.fixedRun && s.job == 2) = false →
     let me : Signaller := { node := s.nodeId, core := 0xFF, ctx := 0, pc := 0, step := s.stepNo }
     let t := if 144 ≤ u.val then s.tookSlot (u.val - 144) 300 else s
     (k.val < objCount u.val 0 → n ≠ 0 → s.orphaned u.val 0 k.val = false →
       exec (.synHostAdd u k n) s = .next (t.addTally u.val k.val n.toNat me).2.progress.settle) ∧
     (k.val < objCount u.val 1 → n ≠ 0 → n.toNat < 2 ^ 31 → s.orphaned u.val 1 k.val = false →
       (s.obj u.val 1 k.val).value + n.toNat < 2 ^ 31 →
       exec (.synHostPut u k n) s = .next (t.addPool u.val k.val n.toNat me).2.progress.settle) ∧
     (∀ kind : Bool, 144 ≤ u.val → k.val < objCount u.val (b2n kind) →
       exec (.synHostRelease u kind k) s = .next (t.hostRelease u.val (b2n kind) k.val).progress.settle) ∧
     (∀ (v : Word) (src : Src), s.reaches src = true → s.pageCode (pSYN u.val) 0x100 = none →
       fld v 12 0 < objCount u.val (fld v 13 13) →
       ∃ t : State, exec (.synSelWrite u v src) s = .next t.progress.settle ∧
         t.regs = (s.setReg (pSYN u.val) 0x100 (v &&& mask 13 0)).regs ∧ t.sync.objs = s.sync.objs ∧ t.mem = s.mem) ∧
     (∀ v : Word, s.pageCode (pSYN u.val) 0x108 = none → s.jobBusy = false → (s.synSel u.val).1 = 0 →
       exec (.synValueWrite u v) s = .next (s.setObj u.val 0 (s.synSel u.val).2
         { s.obj u.val 0 (s.synSel u.val).2 with
           value := v.toNat
           wrap := false }).progress.settle) ∧
     (∀ v : Word, s.pageCode (pSYN u.val) 0x108 = none → s.jobBusy = false → (s.synSel u.val).1 = 1 → fld v 31 0 < 2 ^ 31 →
       exec (.synValueWrite u v) s = .next (s.setObj u.val 1 (s.synSel u.val).2
         { s.obj u.val 1 (s.synSel u.val).2 with value := fld v 31 0 }).progress.settle))

/-! ## The matrix array, the quantiser, the vector engine, the DMA engine -/

/-- MATRIX_INSTRUCTION: decoded into the matrix queue of its context; its checks are made at the head of the queue (R118,
R136). QUANT and QDRAIN: decoded into the quantiser queue of their context (R118, R175). -/
def Obligations.MatrixAndQuantiserInstructionsDecode : Prop :=
  (∀ (s : State) (i : Issue), Safety.Inv s → fld i.desc.w0 7 0 = 0x10 → Safety.Decodes s i 0 →
     ((s.ctx i.core.val i.ctx.val).head 0 ≠ none ∨ s.mxRefusal i.core.val i.ctx.val i.desc = none) →
     ∃ u, exec (.matrixInstruction i) s = .next u.settle ∧ Safety.Decoded s u i 0) ∧
  (∀ (s : State) (i : Issue) (c : Issue → Instr) (op : Nat), (c, op) ∈ [(Instr.quant, 0x20), (Instr.qdrain, 0x21)] →
     Safety.Inv s → fld i.desc.w0 7 0 = op → Safety.Decodes s i 2 →
     ((s.ctx i.core.val i.ctx.val).head 2 ≠ none ∨ s.qntRefusal i.core.val i.ctx.val i.desc = none) →
     ∃ u, exec (c i) s = .next u.settle ∧ Safety.Decoded s u i 2)

/-- RUN_RELEASE, RUN_END and STATIONARY_UNPIN: the oldest matrix instruction that no check refuses and that waits for nothing is
released when the envelope covers it (R119, R440); a run none of whose lines is poisoned ends on each of its arrays, gives up
its pins and its demand and signals its tally, unless its output tile has been aborted (R117, R122); its stationary pins go at
step L, when its tile is loaded (R110, R120). POISONED_LINE: a released run or instruction that reads the line ends, one of the context named first; where none does, the issue
unit has consumed it: both contexts fault with POISONED, class 0x40, and the error is contained; where a DMA instruction reads it,
the line is poisoned and that instruction meets it (R121, R130, R314). -/
def Obligations.MatrixRows : Prop :=
  (∀ (s : State) (n : CoreId) (x : CtxId),
     (∀ (i : Ins) (m : Mx), s.ready n.val x.val 0 = some i → s.mxRefusal n.val x.val i.desc = none → mxOf i.desc = some m →
       (s.mxWait n.val x.val m).1 = 0 → s.fitsMany n.val 18 m.arrays.length = true → (s.inject (pCOR n.val) 1).1 = false →
       (s.inject (pCOR n.val) 1).2.mxTileRefusal n.val m = none →
       exec (.runRelease n x) s = .next ((s.inject (pCOR n.val) 1).2.mxGate n.val x.val i m).progress.settle) ∧
     (∀ (i : Ins) (m : Mx), s.live = true → s.mxFly n.val x.val = some (i, m) → (s.asLoaded n.val x.val).mxFirstBad n.val m = none →
       let t := m.arrays.foldl (fun (s : State) (a : Nat) => s.mxEndArray n.val x.val m a) s
       let t := ((t.unpin n.val x.val i.seq).freeDemand n.val x.val i.seq).finishIns n.val x.val i
       let t := t.setCtx n.val x.val { t.ctx n.val x.val with loaded := [] }
       exec (.runEnd n x) s = .next (if m.arrays.all (fun a => s.liveState n.val a == 2) then t.signalTally n.val x.val i
         else t).progress.settle) ∧
     (∀ f : Ins × Mx, s.live = true → s.mxFly n.val x.val = some f →
       let mine (p : Pin) : Bool := p.ctx == x.val && p.stationary && p.seq == f.1.seq
       (s.core n.val).pins.any mine = true →
       exec (.stationaryUnpin n x) s = .next ((s.setCore n.val { s.core n.val with
         pins := (s.core n.val).pins.filter (fun p => !mine p) }).mxLoaded n.val x.val f.2).progress.settle)) ∧
  (∀ (s : State) (n : CoreId) (x : CtxId) (l : Fin 65536), s.live = true →
     let spoilt : State := { s with mem := s.mem.setPoison (storeAddr n.val 0 / 64 + l.val) true }
     (∀ t, s.lineIn spoilt n.val x.val l.val = some t → exec (.poisonedLine n x l) s = .next t.progress.settle) ∧
     (∀ t, s.lineIn spoilt n.val x.val l.val = none → s.lineIn spoilt n.val (1 - x.val) l.val = some t →
       exec (.poisonedLine n x l) s = .next t.progress.settle) ∧
     (s.lineIn spoilt n.val x.val l.val = none → s.lineIn spoilt n.val (1 - x.val) l.val = none →
       exec (.poisonedLine n x l) s = .next (if s.dmaReads n.val l.val then spoilt
         else (spoilt.faultBoth n.val
           { unit := 8, cls := 0x40, code := 0x40, pc := s.ctxPc n.val x.val }).contained).progress.settle))

/-- QNT_RELEASE and QNT_COMPLETE: the oldest quantiser instruction is released when its operands are resident, its drain has a
full shadow set and the envelope covers it, in free mode in the order of decode of its leaves (R128, R172, R440); released and with no poisoned source its stores are made, and it is
complete at once or when its last census update is answered (R173, R177). -/
def Obligations.QuantiserEngineRows : Prop :=
  ∀ (s : State) (n : CoreId) (x : CtxId),
    (∀ i : Ins, s.ready n.val x.val 2 = some i → s.qntRefusal n.val x.val i.desc = none → (s.core n.val).qnt = none →
      s.turnOk n.val x.val (s.core n.val).turnQ = true → s.notReady n.val x.val i (s.qntReads n.val i.desc) = none →
      s.vdrainFirst n.val x.val i = false → s.firstCome n.val x.val 2 i (s.qntMay n.val) = true →
      (qDrain i.desc = true → s.drainStep n.val x.val i.seq (qArray i.desc) = 0 ∧ s.qntDeferred n.val x.val i.desc = none) →
      s.qntBadRec n.val i.desc = false → s.fits n.val 3 = true → (s.inject (pCOR n.val) 1).1 = false →
      exec (.qntRelease n x) s = .next ((s.inject (pCOR n.val) 1).2.qntGate n.val x.val i).progress.settle) ∧
    (∀ j : EngJob, s.live = true → (s.core n.val).qnt = some j → j.sent = true → j.open_ = 0 →
      exec (.qntComplete n) s = .next (s.qntDone n.val j.ctx j.ins j.events).progress.settle) ∧
    (∀ (j : EngJob) o, s.live = true → (s.core n.val).qnt = some j → j.sent = false →
      qDst j.ins.desc (s.qGeom n.val j.ins.desc) = some o → s.qntFirstBad n.val j.ins.desc = none →
      let ls := s.qntLoads n.val j.ins.desc
      let q := qntOut j.ins.desc o ls.1
      s.pinnedByOther n.val j.ctx j.ins.seq (writtenLines q.writes) = false →
      (qCensus j.ins.desc && s.censusWaits n.val j.ins.desc) = false →
      exec (.qntComplete n) s =
        .next (ls.2.qntFinish n.val j.ctx j.ins (s.qGeom n.val j.ins.desc).2 ls.1 q).progress.settle)

/-- The twenty vector instructions: decoded into the vector queue of their context (R118, R188 to R212). -/
def Obligations.VectorInstructionsDecode : Prop :=
  ∀ (s : State) (i : Issue) (c : Issue → Instr) (op : Nat),
    (c, op) ∈ [(Instr.vadd, 0x30), (Instr.vsub, 0x31), (Instr.vmul, 0x32), (Instr.vfma, 0x33), (Instr.vdiv, 0x34),
      (Instr.vmax, 0x35), (Instr.vmin, 0x36), (Instr.vconv, 0x37), (Instr.vexp, 0x38), (Instr.vrcp, 0x39), (Instr.vrsq, 0x3A),
      (Instr.vlog, 0x3B), (Instr.vrsum, 0x3C), (Instr.vrdot, 0x3D), (Instr.vrmax, 0x3E), (Instr.vrmin, 0x3F),
      (Instr.lutb, 0x40), (Instr.vdrain, 0x41), (Instr.vopt, 0x42), (Instr.vdice, 0x43)] →
    Safety.Inv s → fld i.desc.w0 7 0 = op → Safety.Decodes s i 1 →
    ((s.ctx i.core.val i.ctx.val).head 1 ≠ none ∨ s.vecRefusal i.core.val i.ctx.val i.desc = none) →
    ∃ u, exec (c i) s = .next u.settle ∧ Safety.Decoded s u i 1

/-- VEC_RELEASE and VEC_COMPLETE: the oldest vector instruction is released when its operands are resident and the envelope
covers it, in free mode in the order of decode of its leaves (R128, R198, R440); with no poisoned source it completes with the stores, flags and counts of `State.vecWork`. -/
def Obligations.VectorEngineRows : Prop :=
  ∀ (s : State) (n : CoreId) (x : CtxId),
    (∀ i : Ins, s.ready n.val x.val 1 = some i → s.vecRefusal n.val x.val i.desc = none → (s.core n.val).vec = none →
      s.turnOk n.val x.val (s.core n.val).turnV = true → s.notReady n.val x.val i (vReads i.desc) = none →
      s.qdrainFirst n.val x.val i = false → s.firstCome n.val x.val 1 i (s.vecMay n.val) = true →
      (if opOf i.desc = 0x41 then s.drainStep n.val x.val i.seq (vArray i.desc) = 0 ∧ s.vecDeferred n.val x.val i.desc = none
        else s.vecReadRefusal n.val i.desc = none) →
      s.fits n.val 10 = true → (s.inject (pCOR n.val) 1).1 = false →
      exec (.vecRelease n x) s = .next ((s.inject (pCOR n.val) 1).2.vecGate n.val x.val i).progress.settle) ∧
    (∀ j : EngJob, s.live = true → (s.core n.val).vec = some j → s.vecFirstBad n.val j.ins.desc = none →
      let w := s.vecWork n.val j.ins.desc j.step
      s.pinnedByOther n.val j.ctx j.ins.seq (writtenLines w.1.writes) = false →
      exec (.vecComplete n) s = .next (w.2.vecFinish n.val j.ctx j.ins w.1).progress.settle)

/-- DCOPY and DATOM decode into the DMA queue of their context; DMA_LINE_REQUEST issues the next piece of an instruction already
released, or writes one that had to wait, or releases the oldest one that waits for nothing; DMA_COMPLETE ends an instruction whose every request is answered:
its lines become resident, its demand is freed, its tally is signalled (R118, R308 to R311). -/
def Obligations.DmaRows : Prop :=
  (∀ (s : State) (i : Issue) (c : Issue → Instr) (op : Nat), (c, op) ∈ [(Instr.dcopy, 0x80), (Instr.datom, 0x81)] →
    Safety.Inv s → fld i.desc.w0 7 0 = op → Safety.Decodes s i 3 → s.dmaRefusal i.core.val i.ctx.val i.desc = none →
    ∃ u, exec (c i) s = .next u.progress.settle ∧ Safety.Decoded s u i 3) ∧
  (∀ (s : State) (n : CoreId) (x : CtxId), s.live = true →
    (∀ (j : DmaJob) (t : State), (j.parked = [] → (s.core n.val).inFlight + s.pieceReqs j ≤ 4096) →
      (s.core n.val).dma.find? (fun j => j.ctx == x.val && (!j.issued || j.parked != [])) = some j → s.dmaIssue n.val j = some t →
      exec (.dmaLineRequest n x) s = .next t.progress.settle) ∧
    (∀ (i : Ins) (t : State), (s.core n.val).inFlight + s.pieceReqs { ctx := x.val, ins := i } ≤ 4096 →
      (s.core n.val).dma.find? (fun j => j.ctx == x.val && (!j.issued || j.parked != [])) = none → s.dmaNext n.val x.val = some i →
      s.fits n.val 0 = true → (s.inject (pCOR n.val) 1).1 = false →
      ((s.inject (pCOR n.val) 1).2.takeDma n.val x.val i).dmaIssue n.val { ctx := x.val, ins := i } = some t →
      exec (.dmaLineRequest n x) s = .next t.progress.settle) ∧
    (∀ j : DmaJob, (s.core n.val).dma.find? (fun j => j.ctx == x.val && j.issued && j.open_ == 0) = some j →
      let t := s.setCore n.val { s.core n.val with
        dma := (s.core n.val).dma.filter (fun e => !(e.ctx == x.val && e.ins.seq == j.ins.seq)) }
      let t := (t.setResident n.val j.ins.lines true).finishIns n.val x.val j.ins
      exec (.dmaComplete n x) s =
        .next ((t.freeDemand n.val x.val j.ins.seq).signalTally n.val x.val j.ins).progress.settle))

/-! ## Programs and memory -/

/-- PROGRAM_LOAD, PROGRAM_STORE and HALT of a running context, with no trigger and no injected fault: a load that nothing
refuses answers its data and moves PC on; a store to memory that need not wait is written and moves PC on, one to register
space is served or refused by its page; HALT stops the context (R42, R130, R248, R518). -/
def Obligations.ProgramRows : Prop :=
  ∀ (s : State) (n : CoreId) (x : CtxId), s.runs n.val x.val = true →
    (s.trigArmed 1 = false → (s.inject (pCOR n.val) 2).1 = false →
      let t := (s.inject (pCOR n.val) 2).2
      (exec (.halt n x) s = .next (t.haltCtx n.val x.val).progress.settle) ∧
      (∀ (a npc : BitVec 48) (k : Nat), loadWidths.contains k = true → s.inHold a.toNat = false → s.closing a.toNat k = false →
        t.accessCode a.toNat k true = cOK →
        exec (.programLoad n x a k npc) s = .next (t.loadNow n x a.toNat k npc.toNat).progress.settle) ∧
      (∀ (a npc : BitVec 48) (d : List Byte), loadWidths.contains d.length = true → t.accessCode a.toNat d.length false = cOK →
        (regBase ≤ a.toNat → exec (.programStore n x a d npc) s = .next (t.storeReg n x a.toNat d npc.toNat).progress.settle) ∧
        (∀ u, a.toNat < regBase → t.storeMem n.val x.val a.toNat d npc.toNat = some u →
          exec (.programStore n x a d npc) s = .next u.progress.settle)))

/-- R314: a write stores its bytes from its address on, every other byte of memory reads as before, and every line that it covers
in full becomes clean; a line it does not touch keeps its poison. -/
def Obligations.MemoryWriteFrame : Prop :=
  ∀ (m : Mem) (a : Nat) (bs : List Byte), Memory.wf m = true →
    (∀ k (h : k < bs.length), (m.write a bs).byte (a + k) = bs[k]) ∧
    (∀ b, (b < a ∨ a + bs.length ≤ b) → (m.write a bs).byte b = m.byte b) ∧
    (∀ l, a ≤ l * 64 → l * 64 + 64 ≤ a + bs.length → (m.write a bs).lineBad l = false) ∧
    (∀ l, ¬(a ≤ l * 64 ∧ l * 64 + 64 ≤ a + bs.length) → (m.write a bs).lineBad l = m.lineBad l)

/-- R314: a plain write to HBM, LLC scratch or a core store changes no byte of memory outside those that it stores, and where no
pseudo-channel is fenced or was, every byte that it stores reads as written. -/
def Obligations.PlainWriteFrame : Prop :=
  ∀ (s : State) (ctxs : List Nat) (a : Nat) (bs : List Byte), Memory.wf s.mem = true →
    (∀ b, (b < a ∨ a + bs.length ≤ b) → (s.plainWrite ctxs a bs).mem.byte b = s.mem.byte b) ∧
    (s.neverFenced = true → ∀ k (h : k < bs.length), (s.plainWrite ctxs a bs).mem.byte (a + k) = bs[k])

/-- MEMORY_READ, MEMORY_WRITE and MEMORY_ATOMIC on HBM or LLC scratch. In a pseudo-channel that is in hold they queue where the
limits of R299 leave room. Elsewhere, off the lines of an open commit window: a read passes its ECC checks and answers the bytes
its requester sees, with their poison; a write is taken by its unit, that of a program or of a DMA engine after the region
table; an atomic that its adder accepts takes effect, and one that it refuses changes nothing but its requester (R260, R273,
R298 to R305, R313, R316). -/
def Obligations.MemoryRows : Prop :=
  ∀ (s : State) (r : Requester) (a : BitVec 48), s.live = true →
    (∀ (n : Nat) (cls : Fin 4) (hit : Bool) (e : Ecc), 0 < n → a.toNat % 64 + n ≤ 64 → classOk r cls.val = true →
      s.served a.toNat n = true → s.mayFetchAt r a.toNat = true →
      (s.inHold a.toNat = false → s.closing a.toNat n = false →
        let t := (s.eccRead a.toNat n (some cls.val) hit e).servedBy r a.toNat
        let bad := t.seenBad (s.viewOf r) (a.toNat / 64)
        exec (.memoryRead r a n cls hit e) s =
          .next ((t.emit (.memData a.toNat (t.seen (s.viewOf r) a.toNat n) bad)).readConsumed r bad).progress.settle) ∧
      (∀ t, s.inHold a.toNat = true → s.holdCmd r (.memoryRead r a n cls hit e) a.toNat (some cls.val) = some t →
        exec (.memoryRead r a n cls hit e) s = .next t.progress.settle)) ∧
    (∀ d : List Byte, reqFetches r = false → d ≠ [] → a.toNat % 64 + d.length ≤ 64 → s.served a.toNat d.length = true →
      (s.inHold a.toNat = false → s.closing a.toNat d.length = false →
        (reqWriter r = none →
          exec (.memoryWrite r a d) s = .next ((s.plainWrite (reqCtxs r) a.toNat d).servedBy r a.toNat).progress.settle) ∧
        (∀ n x c t, reqWriter r = some (n, x) → s.ctxWrite n x (s.ctx n x).txn a.toNat d false = some (c, t) →
          exec (.memoryWrite r a d) s =
            .next (if c = cOK then t.servedBy r a.toNat else t.refuseReq r a.toNat 0x21 c).progress.settle)) ∧
      (∀ t, s.inHold a.toNat = true → s.holdCmd r (.memoryWrite r a d) a.toNat none = some t →
        exec (.memoryWrite r a d) s = .next t.progress.settle)) ∧
    (∀ (op : Fin 16) (v : Word) (fetch : Bool), reqFetches r = false → op.val ≠ 0 →
      let w := aopWidth op.val
      let who : Asker := if fetch then .out a.toNat w else .none
      (s.inHold a.toNat = false → s.closing a.toNat w = false →
        (s.aopCode op.val a.toNat false = cOK → s.reqRegion r a.toNat w = cOK → exec (.memoryAtomic r a op v none fetch) s =
          .next ((s.servedBy r a.toNat).applyAop op.val a.toNat v.toNat who).progress.settle) ∧
        (s.aopCode op.val a.toNat false = cOK → s.reqRegion r a.toNat w ≠ cOK → exec (.memoryAtomic r a op v none fetch) s =
          .next (s.refuseReq r a.toNat 0x21 (s.reqRegion r a.toNat w)).progress.settle) ∧
        (s.aopCode op.val a.toNat false ≠ cOK → exec (.memoryAtomic r a op v none fetch) s =
          .next ((s.servedBy r a.toNat).refuseReq r a.toNat 0x40 (s.aopCode op.val a.toNat false)).progress.settle) ∧
        (∀ o : Nat × Nat, o.1 < 64 → 1 ≤ o.2 → o.2 ≤ 64 → op.val = 3 → s.aopCode 3 a.toNat true = cOK →
          s.reqRegion r a.toNat w = cOK →
          let u := (s.servedBy r a.toNat).arriveTagged a.toNat v.toNat o.1 o.2 who
          exec (.memoryAtomic r a op v (some o) fetch) s =
            .next (if u.1 = cOK then u.2 else u.2.refuseReq r a.toNat 0x40 u.1).progress.settle)) ∧
      (∀ t, s.inHold a.toNat = true → s.holdCmd r (.memoryAtomic r a op v none fetch) a.toNat none = some t →
        exec (.memoryAtomic r a op v none fetch) s = .next t.progress.settle))

/-- R303: the exact 64-bit accumulator addition. NAR in either operand gives NAR; a saturated old word stands; otherwise the sum is
exact, or the limit of its sign. Addition of words that neither is NAR nor saturates is commutative. -/
def Obligations.A64AddRule : Prop :=
  ∀ a b : Word,
    (a = narWord ∨ b = narWord → (a64Add a b).1 = narWord) ∧
    (a ≠ narWord → b ≠ narWord →
      ((a.toInt = 2 ^ 63 - 1 ∨ a.toInt = -(2 ^ 63 - 1)) → (a64Add a b).1 = a) ∧
      (a.toInt ≠ 2 ^ 63 - 1 → a.toInt ≠ -(2 ^ 63 - 1) →
        (a64Add a b).1.toInt = max (-(2 ^ 63 - 1)) (min (2 ^ 63 - 1) (a.toInt + b.toInt))) ∧
      (a.toInt ≠ 2 ^ 63 - 1 → a.toInt ≠ -(2 ^ 63 - 1) → b.toInt ≠ 2 ^ 63 - 1 → b.toInt ≠ -(2 ^ 63 - 1) →
        a64Add a b = a64Add b a))

/-- R293: hbm_map. Under GLOBAL a granule goes to stack g % 20, pseudo-channel (g / 20) % 32 and index g / 640; under DIE die d holds
the contiguous range that begins at d * 160 * P * 256 bytes, its granules rotating over its five stacks first; P is 9,363,456 with
the reserve and 9,437,184 without. In both, an address below the end of HBM maps to an index below P, and two granules never
share a place; under GLOBAL any 160 KiB touch every pseudo-channel. -/
def Obligations.HbmMapRule : Prop :=
  ∀ (s : State) (a b : Nat), a < s.hbmEnd → b < s.hbmEnd →
    let g := a / 256
    let m := s.hbmMap a
    (s.rf (pMEM 0) 0x100 1 0 = 0 → m = (g % 20, g / 20 % 32, g / 640)) ∧
    (s.rf (pMEM 0) 0x100 1 0 ≠ 0 →
      let d := g / (160 * s.granules)
      let h := g - d * (160 * s.granules)
      m = (5 * d + h % 5, h / 5 % 32, h / 160) ∧ m.1 / 5 = d) ∧
    (s.pagePowered (pMEM 0) = true → s.granules = if bitAt (s.readReg (pMEM 0) 0x108) 0 then 9363456 else 9437184) ∧
    m.1 < 20 ∧ m.2.1 < 32 ∧ m.2.2 < s.granules ∧ (s.hbmMap b = m → b / 256 = g) ∧
    (s.rf (pMEM 0) 0x100 1 0 = 0 → ∀ i c, i < 20 → c < 32 → ∃ e, a ≤ e ∧ e < a + 163840 ∧ (s.hbmMap e).1 = i ∧ (s.hbmMap e).2.1 = c)

/-! ## Memory controllers -/

/-- R300, R301: the frame of a controller has 16 places, its first CAP0 of class 0 and the others of classes 1 to 3. In fixed-order
mode the next read is of the first place, from where the last read left off, whose class has a read waiting: every place between
is skipped, and nothing is read only when no place has a read. In free mode the class of the next place reads when it can, and
some class reads whenever one has a read waiting. -/
def Obligations.ReadFramePlaces : Prop :=
  ∀ (s : State) (i : Nat) (has : Nat → Bool), (s.stack i).slot < 16 →
    let cap := s.rf (pMEM i) 0x110 3 0
    let cls (p : Nat) := (s.frame i).getD (p % 16) 0
    let at_ := (s.stack i).slot
    (s.frame i).length = 16 ∧ (∀ p, p < cap → cls p = 0) ∧ (∀ p, cap ≤ p → p < 16 → 1 ≤ cls p ∧ cls p ≤ 3) ∧
    (s.fixedOrder = true →
      (∀ c n, s.pickClass i has = some (c, n) → ∃ d, d < 16 ∧ c = cls (at_ + d) ∧ has c = true ∧ n = (at_ + d + 1) % 16 ∧
        ∀ e, e < d → has (cls (at_ + e)) = false) ∧
      (s.pickClass i has = none ↔ ∀ p, p < 16 → has (cls p) = false)) ∧
    (s.fixedOrder = false →
      (has (cls at_) = true → s.pickClass i has = some (cls at_, (at_ + 1) % 16)) ∧
      (s.pickClass i has = none ↔ ∀ c, c < 4 → has c = false))

/-- WCB_SECTOR_LEAVE, SCRUB_READ, SEVERITY_POLL, PHY_DRIFT_EVAL and SELF_REFRESH_RETURN: the oldest sector that the reason concerns
leaves the buffer; a patrol read of a granule checks its words; a severity of 0 changes nothing and another is recorded and
raised; a drift alarm triggers a retrain; a stack woken while frozen goes back (R302, R315, R317, R476). MAINT, RETIRE and RETIRE_DONE (R318, R319): MAINT opens a maintenance point; RETIRE of a pseudo-channel that is not retired
starts when the reserve can take it; when it is done MEM.RETIRED names it, its granules that could not be read are poisoned and
it is added to the spare record. -/
def Obligations.ControllerRows : Prop :=
  (∀ (s : State) (i : StackId),
     (∀ (why : LeaveWhy) (e : Ecc) (w : Sector), s.leaving i.val why = some w →
       exec (.wcbSectorLeave i why e) s = .next (s.sectorLeaves i.val w e).progress.settle) ∧
     (s.live = true →
       (∀ (c : PchId) (g : Fin 9437184), bitAt (s.reg (pMEM i.val) 0x100) 9 = true → (s.stack i.val).hold ≠ some c.val →
         (s.stack i.val).fenced.contains c.val = false → bitAt (s.reg (pMEM i.val) 0x158) c.val = false →
         (∀ eccs, exec (.scrubRead i c g eccs) s = .next (s.scrubGranule i.val c.val g.val eccs).progress.settle) ∧
         (bitAt (s.reg (pMEM i.val) 0x050) 0 = false → s.scrubGranule i.val c.val g.val [] = s)) ∧
       (∀ (v : Fin 4) (c : PchId), (s.inject (pMEM i.val) 3).1 = false →
         let t := (s.inject (pMEM i.val) 3).2
         exec (.severityPoll i v c) s = .next (if v.val = 0 then t
           else (t.setReg (pMEM i.val) 0x138 (BitVec.ofNat 64 (2 ^ 63 + c.val * 256 + v.val))).raise (pMEM i.val) 5).progress.settle) ∧
       (∀ (c : PchId) (a : Bool), (s.inject (pMEM i.val) 4).1 = false →
         let t := (s.inject (pMEM i.val) 4).2
         exec (.phyDriftEval i c a) s = .next (if a then t.triggerRetrain i.val c.val else t).progress.settle)) ∧
     (s.live = false → (s.stack i.val).awake = true →
       exec (.selfRefreshReturn i) s = .next (s.setStack i.val { s.stack i.val with awake := false }).settle)) ∧
  (∀ (s : State) (i : StackId) (c : PchId) (src : Src),
     (s.reaches src = true → s.pageCode (pMEM 0) 0x160 = none → exec (.maint src) s = .next s.maintenancePoint.progress.settle) ∧
     (s.reaches src = true → s.pageCode (pMEM i.val) 0x150 = none → bitAt (s.reg (pMEM i.val) 0x158) c.val = false →
       s.mayRetire i.val = true → exec (.retire i c src) s = .next (s.beginRetire i.val c.val).progress.settle) ∧
     (s.live = true → (s.stack i.val).retiring = some c.val →
       let k := s.stack i.val
       let t := s.setStack i.val { k with
         retiring := none
         copied := 0
         pend := delSet k.pend c.val
         go := delSet k.go c.val
         hold := if k.hold = some c.val then none else k.hold }
       let u := (t.setRf (pMEM i.val) 0x158 c.val c.val 1).setRf (pMEM i.val) 0x150 1 0 2
       exec (.retireDone i []) s =
         .next (((((u.retrainRegs i.val).raise (pMEM i.val) 4).addSparePch (32 * i.val + c.val)).serveWaiting
           i.val).startHold i.val).progress.settle))

/-- RETRAIN_REQ, RETRAIN_TRAINED, RETRAIN_HOLD_TIMEOUT, RETRAIN_FORCED and FENCED_RETRY (R316, R317): a request for a pseudo-channel
with no retrain standing triggers one; a training that succeeds ends the hold and counts; one that does not, where none may be
retired, fences the pseudo-channel, and where one may, retires it; then the requests that have waited are served; one deferred to the end of a fixed-order run may be forced; a retry that trains
unfences it. -/
def Obligations.RetrainRows : Prop :=
  ∀ (s : State) (i : StackId) (c : PchId),
    let k := s.stack i.val
    (∀ src : Src, s.reaches src = true → s.pageCode (pMEM i.val) 0x148 = none → k.pend.contains c.val = false →
      k.hold ≠ some c.val → exec (.retrainReq i c src) s = .next (s.triggerRetrain i.val c.val).progress.settle) ∧
    (s.live = true →
      (∀ us, k.hold = some c.val → us ≤ 40 → s.holdDrained i.val c.val = true →
        let t := s.setStack i.val { k with
          hold := none
          ceRetrain := Tab.set k.ceRetrain 0 c.val 0 }
        exec (.retrainTrained i us) s = .next (((((t.noteHold i.val us).setRf (pMEM i.val) 0x140 47 32
          (t.rf (pMEM i.val) 0x140 47 32 + 1)).retrainRegs i.val).serveWaiting i.val).startHold i.val).progress.settle) ∧
      (k.hold = some c.val → s.holdDrained i.val c.val = true →
        let t := ((s.setStack i.val { k with hold := none }).noteHold i.val 40).raise (pMEM i.val) 1
        t.mayRetire i.val = false →
        exec (.retrainHoldTimeout i) s =
          .next ((((t.fencePch i.val c.val).retrainRegs i.val).serveWaiting i.val).startHold i.val).progress.settle) ∧
      (k.hold = some c.val → s.holdDrained i.val c.val = true →
        let t := ((s.setStack i.val { k with hold := none }).noteHold i.val 40).raise (pMEM i.val) 1
        t.mayRetire i.val = true →
        let u := t.beginRetire i.val c.val
        let u := u.setStack i.val { u.stack i.val with lost := insSet (u.stack i.val).lost c.val }
        exec (.retrainHoldTimeout i) s = .next (((u.retrainRegs i.val).serveWaiting i.val).startHold i.val).progress.settle) ∧
      (k.pend.contains c.val = true → k.go.contains c.val = false →
        exec (.retrainForced i c) s = .next (((((s.setStack i.val { k with go := insSet k.go c.val }).raise (pMEM i.val) 3).voidSeq
          34).startHold i.val)).progress.settle) ∧
      (k.fenced.contains c.val = true → (s.fixedRun && s.job == 2) = false → ∃ t : State,
        exec (.fencedRetry i c true) s = .next (t.retrainRegs i.val).progress.settle ∧
        t = s.setStack i.val { k with
          go := delSet k.go c.val
          fenced := delSet k.fenced c.val
          stale := insSet k.stale c.val
          ceRetrain := Tab.set k.ceRetrain 0 c.val 0 }))

/-! ## Transactions and steps -/

/-- TXB, TXO, TXC, TXA and TXE decode into the sync queue of their context; a TXB notes the address of the status line that its
transaction will write (R268 to R277, R287). ALLREDUCE, REDUCESCATTER, ALLGATHER and BROADCAST decode into the DMA queue of their context, from which they reach the engine
of the die that they name (R352, R366). -/
def Obligations.TransactionAndCollectiveInstructionsDecode : Prop :=
  (∀ (s : State) (i : Issue), Safety.Inv s →
     (∀ (c : Issue → Instr) (op : Nat), (c, op) ∈ [(Instr.txo, 0x61), (Instr.txc, 0x62), (Instr.txa, 0x63), (Instr.txe, 0x64)] →
       fld i.desc.w0 7 0 = op → Safety.Decodes s i 4 → s.txnRefusal i.core.val i.ctx.val i.desc = none →
       ∃ u, exec (c i) s = .next u.progress.settle ∧ Safety.Decoded s u i 4) ∧
     (fld i.desc.w0 7 0 = 0x60 → s.txnRefusal i.core.val i.ctx.val i.desc = none →
       let t := s.noteStatus i.core.val i.ctx.val i.desc
       Safety.Decodes t i 4 → t.txnRefusal i.core.val i.ctx.val i.desc = none →
       ∃ u, exec (.txb i) s = .next u.progress.settle ∧ Safety.Decoded t u i 4)) ∧
  (∀ (s : State) (i : Issue) (c : Issue → Instr) (op : Nat),
     (c, op) ∈ [(Instr.allreduce, 0), (Instr.reducescatter, 1), (Instr.allgather, 2), (Instr.broadcast, 3)] →
     Safety.Inv s → fld i.desc.w0 7 0 = 0x70 → fld i.desc.w0 26 24 = op → Safety.Decodes s i 3 →
     s.collRefusal i.core.val i.ctx.val i.desc = none →
     ∃ u, exec (c i) s = .next u.progress.settle ∧ Safety.Decoded s u i 3)

/-- TAGGED_WRITE, COMMIT_WINDOW_CLOSE, RESOLVE and TAGGED_LINE_WRITEBACK (R260 to R280): a write of a member is held as tagged
lines, or refused in APPLY; the window of a committing transaction closes, and what waited for it goes on; the host resolves an undecided machine transaction, 1 to commit and 2 to
abort; a committed line that leaves the tagged table is memory's alone. -/
def Obligations.TransactionRows : Prop :=
  ∀ s : State, s.live = true →
    (∀ (n : CoreId) (x : CtxId) (a : BitVec 48) (d : List Byte) (id : Nat) (t : State), d ≠ [] → a.toNat % 64 + d.length ≤ 64 →
      a.toNat + d.length ≤ s.hbmEnd → (s.ctx n.val x.val).txn = some id → ∀ c, s.tagWrite id n.val x.val a.toNat d false = some (c, t) →
      exec (.taggedWrite n x a d) s = .next (if c = cOK then t else t.faultStore n.val x.val 0x21 c).progress.settle) ∧
    (∀ (id : Nat) (t : Txn), s.findTxn id = some t → t.state = 3 →
      exec (.commitWindowClose id) s = .next (s.closeWindow id).serveAllWaiting.progress.settle) ∧
    (∀ (v : Fin 4) (src : Src) (t : Txn), s.reaches src = true → s.pageCode (pTXN 0) 0x138 = none → (v.val = 1 ∨ v.val = 2) →
      s.machineTxn = some t → t.state = 4 →
      exec (.resolve v src) s = .next (s.decideStep
        { flags := if v.val = 1 then 0 else s.ownRec.flags ||| 2, smin := s.stepNo, smax := s.stepNo } (v.val == 1) false
        true).progress.settle) ∧
    (∀ (line : BitVec 42) (l : TLine), s.taggedAt line.toNat = some l → l.owner = none →
      exec (.taggedLineWriteback line) s = .next (({ s with txn := { s.txn with
        tagged := s.txn.tagged.filter (fun k => k.line != line.toNat) } } : State).txnRegs).progress.settle)

/-- COLLECTIVE_START, COLLECTIVE_COMPLETE, COLLECTIVE_TIMEOUT and COLL (R351 to R360): the oldest collective of an idle axis starts
under a tag of its own; one whose every element is written leaves its engine and is counted, the one that its context asked
for ends; one that does not finish in time fails with TIMEOUT, a contained error; a packet for a live collective waits for its
engine. -/
def Obligations.CollectiveRows : Prop :=
  ∀ (s : State) (d : DieId) (ax : AxisId), s.live = true →
    (∀ e : Nat × CollJob, s.coll.queue.find? (fun e => e.1 == d.val && e.2.axis == ax.val) = some e → s.collRun d.val ax.val = none →
      let r : CollRun := { job := e.2, tag := s.newTag.1 }
      let u := s.newTag.2
      let u : State := { u with coll := { u.coll with
        queue := u.coll.queue.erase e
        run := u.coll.run ++ [(3 * d.val + ax.val, r)]
        dead := u.coll.dead.filter (fun k => k != (d.val, ax.val, e.2.id)) } }
      ((u.collRegs d.val).inject (pCOL d.val) 1).1 = false →
      exec (.collectiveStart d ax) s = .next (((u.collRegs d.val).inject (pCOL d.val) 1).2.collPump).progress.settle) ∧
    (∀ r : CollRun, s.collPump.collRun d.val ax.val = some r → r.job.by_ = none → s.collPump.live = true →
      s.collPump.collDone r = true →
      exec (.collectiveComplete d ax) s =
        .next (((s.collPump.collGone d.val ax.val).addReg (pCOL d.val) 0x128 1).collPump).progress.settle) ∧
    (∀ (r : CollRun) (n x : Nat) (j : Ins), s.collPump.collRun d.val ax.val = some r → r.job.by_ = some (n, x, j) →
      s.collPump.live = true → s.collPump.collDone r = true →
      let t := (s.collPump.collGone d.val ax.val).addReg (pCOL d.val) 0x128 1
      (t.ctx n x).fly.any (fun i => i.seq == j.seq && i.epoch == j.epoch) = true →
      exec (.collectiveComplete d ax) s = .next (((t.finishIns n x j).signalTally n x j).collPump).progress.settle) ∧
    (∀ r : CollRun, s.collRun d.val ax.val = some r → s.collDone r = false →
      exec (.collectiveTimeout d ax) s =
        .next (((s.collFail d.val ax.val r 0x40 (some 0)).contained).collPump).progress.settle) ∧
    (∀ p : Packet, pktOk 0x10 1 128 p = true → s.collFor d.val ax.val p = true →
      let t := s.takeArrival p
      exec (.coll d ax p) s = .next (if s.coll.dead.contains (d.val, ax.val, fld p.w3 63 48)
        then (t.addReg (pRTR d.val) 0x140 1).collDrain (s.arrivalSlot p) p
        else ({ t with coll := { t.coll with
          waiting := t.coll.waiting ++ [(s.arrivalSlot p, d.val, ax.val, p)] } } : State).collPump).progress.settle)

/-- STEP_END, VERDICT_SET, EVAL_START, EVAL_END, VERDICT_REDUCTION_COMPLETE and STEP_LOG_ACK (R216 to R219, R229): the end of a step
is noted, and its record made final, while a job runs with nothing that forbids it; verdict sources are set; evaluation begins and ends; a finished
reduction decides the step on the record that the node carries, and an acknowledged log entry advances it. BAR, BARRIER_RELEASE, BAR_TIMEOUT and PACE_WINDOW (R361 to R364): a barrier symbol is passed on and makes the release of the
node due, or is kept for the job start to come; a due release starts the job or adds to the barrier tallies; a barrier that does
not come raises its event and is no longer waited for; a pace window stores its 32 values, their median, and levels the islands. -/
def Obligations.StepAndBarrierRows : Prop :=
  (∀ (s : State) (src : Src),
     (s.reaches src = true →
       (s.pageCode pCFE 0x188 = none → s.job = 2 → s.machineTxn = none → s.evalActive = false → s.genBase ≠ 2 →
         s.step.stepEnd = false → s.step.ending = none →
         exec (.stepEnd src) s = .next ({ s with step := { s.step with stepEnd := true } } : State).contribute.progress.settle) ∧
       (s.pageCode pCFE 0x1E0 = none → ∀ b : Fin 8, exec (.verdictSet b src) s = .next (s.verdictSet b.val).progress.settle) ∧
       (s.pageCode pCFE 0x1E8 = none →
         (s.machineTxn = none → exec (.evalStart src) s = .next (s.setReg pCFE 0x1E8 1).progress.settle) ∧
         exec (.evalEnd src) s = .next (s.setReg pCFE 0x1E8 0).progress.settle)) ∧
     (s.live = true → s.reductionDone = true →
       let t := s.contribute
       exec .verdictReductionComplete s =
         .next (t.decideStep t.carriedRec t.carriedRec.positive false false).progress.settle) ∧
     (∀ e : Ending, s.live = true → s.step.ending = some e → e.logged = true → s.evalActive = false →
       exec .stepLogAck s = .next (s.advanceStep e).progress.settle)) ∧
  (∀ s : State, s.live = true →
     (∀ p : PortId, s.linkState p.val = 2 → exec (.bar p) s = .next s.sendBar.takeBar.progress.settle) ∧
     (∀ (start : Bool) (r : List Bool), s.coll.barDue = start :: r →
       let t : State := { s with coll := { s.coll with barDue := r } }
       exec .barrierRelease s = .next (if start then t.releaseJob else t.releaseStep).progress.settle) ∧
     (s.coll.barWait = true → exec .barTimeout s = .next (({ s with coll := { s.coll with
         barWait := false
         barLate := true } } : State).raise (pCOL 0) 4).progress.settle) ∧
     (∀ l : List (BitVec 32), l.length = 32 → s.board.pwrgood = true → 3 ≤ s.stage →
       exec (.paceWindow l) s = .next (s.pace (l.map (fun v => v.toNat))).progress.settle))

/-- R217: verdict records combine to one that holds every flag of both and the least and the greatest step of both; in any order and
any grouping the result is the same, and it is positive exactly when both are and all their steps are one. -/
def Obligations.VerdictCombine : Prop :=
  ∀ a b c : VRec,
    a.combine b = b.combine a ∧ (a.combine b).combine c = a.combine (b.combine c) ∧
    (a.combine b).smin = min a.smin b.smin ∧ (a.combine b).smax = max a.smax b.smax ∧
    (∀ i, (a.combine b).flags.testBit i = (a.flags.testBit i || b.flags.testBit i)) ∧
    (a.smin ≤ a.smax → b.smin ≤ b.smax →
      ((a.combine b).positive = true ↔ a.positive = true ∧ b.positive = true ∧ a.smin = b.smin))

/-- R363: the package median is the 16th smallest of the 32 cluster values: at least 16 of them do not exceed it and at least 17 do
not fall below it, and it is one of them. -/
def Obligations.PaceMedianIsOrderStatistic : Prop :=
  ∀ l : List Nat, l.length = 32 →
    paceMedian l ∈ l ∧ 16 ≤ (l.filter (fun v => decide (v ≤ paceMedian l))).length ∧
      17 ≤ (l.filter (fun v => decide (paceMedian l ≤ v))).length

/-! ## Host queues -/

/-- DOORBELL, COMMAND_FETCH, QUEUE_ENABLE, QUEUE_DISABLE and RECORD_WRITE_ACK (R394 to R397, R407): a doorbell of an enabled queue
whose TAIL lies within its depth writes SQ_TAIL; the CFE fetches an entry; enabling a queue whose configuration passes gives it
version 1, disabling it is accepted in every state; an acknowledged record is no longer outstanding. -/
def Obligations.QueueRows : Prop :=
  ∀ (s : State) (q : QueueId) (src : Src), s.reaches src = true →
    (∀ tail : BitVec 32, s.pageCode pCFE1 (0x100 + 8 * q.val) = none → s.queueOn q.val = true →
      (tail.toNat + 2 ^ 32 - s.rf pCFE (qOff q.val 0x20) 31 0) % 2 ^ 32 ≤ 2 ^ s.rf pCFE (qOff q.val 0x00) 23 20 →
      exec (.doorbell q tail src) s = .next (s.setRf pCFE (qOff q.val 0x20) 63 32 tail.toNat).progress.settle) ∧
    (s.mayFetch q.val = true → exec (.commandFetch q) s = .next (s.fetchCmd q.val).progress.settle) ∧
    (∀ v : Word, s.pageCode pCFE (qOff q.val 0x00) = none →
      (bitAt v 0 = true → bitAt (s.reg pCFE (qOff q.val 0x00)) 0 = false → s.queueCheck q.val v = cOK →
        exec (.queueEnable q v src) s = .next ((s.setReg pCFE (qOff q.val 0x00)
          ((v &&& queueBits) ||| BitVec.ofNat 64 (2 ^ 16 + 1))).flushRecs).progress.settle) ∧
      (bitAt v 0 = false → s.reg pCFE (qOff q.val 0x00) &&& queueBits = v &&& queueBits →
        exec (.queueDisable q v src) s = .next (s.setReg pCFE (qOff q.val 0x00) (v &&& queueBits)).progress.settle)) ∧
    (∀ (d : Nat) r, s.live = true → s.hcq.unacked.find? (fun r => r.dseq == d) = some r → exec (.recordWriteAck d) s =
      .next ((({ s with hcq := { s.hcq with unacked := s.hcq.unacked.filter (fun r => r.dseq != d) } } : State).mapQp r.port r.qpn
        (fun k => { k with tries := 0 })).setEvtSeq).progress.settle)

/-- R395: with a = SEQ_ACCEPTED and h the entry's HSEQ, the entry is accepted exactly when h = a + 1, and then SEQ_ACCEPTED is h; when h
is at most a it completes with DUPLICATE, when h is greater than a + 1 or 0 with SEQ_GAP, both of class 0x10, it is not executed and
SEQ_ACCEPTED stands. -/
def Obligations.HostSequenceCases : Prop :=
  ∀ (s : State) (q : QueueId), Safety.Inv s →
    let head := s.rf pCFE (qOff q.val 0x20) 31 0
    let addr := (s.reg pCFE (qOff q.val 0x08)).toNat + 64 * (head % 2 ^ s.rf pCFE (qOff q.val 0x00) 23 20)
    let r := (s.readReq addr 64 (some 0)).2
    let d := descOf (r.bytes addr 64)
    let h := d.w1.toNat
    let u := r.setRf pCFE (qOff q.val 0x20) 31 0 (head + 1)
    let a := (r.reg pCFE (qOff q.val 0x30)).toNat
    (h = a + 1 → 1 ≤ fld d.w0 7 0 → fld d.w0 7 0 ≤ 0x0C →
      let v := u.setReg pCFE (qOff q.val 0x30) (BitVec.ofNat 64 h)
      s.fetchCmd q.val = v.setQueue q.val { v.queue q.val with
        cur := some { desc := d, hseq := h, ver := v.rf pCFE (qOff q.val 0x00) 17 16 } }) ∧
    (h ≤ a → h ≠ 0 → s.fetchCmd q.val = u.complete q.val h 0x40 0x10 (fld d.w0 7 0) (u.dupResult q.val h) none) ∧
    ((a + 1 < h ∨ h = 0) → s.fetchCmd q.val = u.complete q.val h 0x41 0x10 (fld d.w0 7 0) 0 none) ∧
    (h ≠ a + 1 → ((s.fetchCmd q.val).reg pCFE (qOff q.val 0x30)).toNat = a ∧
      ((s.fetchCmd q.val).queue q.val).cur = (s.queue q.val).cur) ∧
    (h = a + 1 → 1 ≤ fld d.w0 7 0 → fld d.w0 7 0 ≤ 0x0C → ((s.fetchCmd q.val).reg pCFE (qOff q.val 0x30)).toNat = h)

/-- The twelve commands of the host queues: judged with no refusal (version, fields, boot stage, job state), a command has its effect:
NOP, NEGOTIATE, LOAD, UNLOAD, STOP and RESUME complete with OK, START begins the job, PREEMPT and STEP_COMMIT begin, XFER, SNAPSHOT
and ATTEST begin to move (R398 to R404). XFER_COMPLETE and PIN_RELEASE (R227, R402): a transfer whose bytes are all acknowledged signals its tally and completes, or completes
with what stopped it; a snapshot releases the pins that no other command shares and completes. -/
def Obligations.HostCommandRows : Prop :=
  (∀ (s : State) (q : QueueId) (c : Cmd), s.live = true → (s.queue q.val).cur = some c → c.begun = false →
     (fld c.desc.w0 7 0 = 0x01 → s.judge c (resvWords c.desc [2, 3, 4, 5, 6, 7]) unfrozen = none →
       exec (.nop q) s = .next (s.completeCmd q.val cOK 0 0).progress.settle) ∧
     (fld c.desc.w0 7 0 = 0x02 → s.judge c (resvWords c.desc [3, 4, 5, 6, 7] ++
         [resv c.desc 2 63 3, (2, 0, cVERSION, offered c.desc.w2 == 0)]) unfrozen = none →
       exec (.negotiate q) s = .next ((s.takeVersion q.val (offered c.desc.w2)).completeCmd q.val cOK 0
         (offered c.desc.w2)).progress.settle) ∧
     (fld c.desc.w0 7 0 = 0x03 → s.cmdReads q.val (fun d => [(fld d.w2 47 0, fld d.w3 39 0)]) = true → s.wicketNoJob = false → s.judge c (s.loadChecks c) [0] = none →
       exec (.load q) s = .next ((s.loadImage (fld c.desc.w2 47 0) (fld c.desc.w3 39 0)).completeCmd q.val cOK 0 0).progress.settle) ∧
     (fld c.desc.w0 7 0 = 0x04 → s.judge c (resvWords c.desc [2, 3, 4, 5, 6, 7]) [1, 6] = none →
       let t := s.endBarrier.resetAll
       exec (.unload q) s = .next ((({ t with hcq := { t.hcq with
         image := none
         entries := [] } } : State).setJob 0).completeCmd q.val cOK 0 0).progress.settle) ∧
     (fld c.desc.w0 7 0 = 0x05 → s.wicketNoJob = false → s.judge c (resvWords c.desc [2, 3, 4, 5, 6, 7]) [1] = none →
       s.startCode = cOK → exec (.start q) s = .next (s.startJob q.val).progress.settle) ∧
     (fld c.desc.w0 7 0 = 0x06 → s.judge c (resvWords c.desc [2, 3, 4, 5, 6, 7]) [2, 3, 6] = none →
       exec (.stop q) s = .next ((((s.setJob 4).endBarrier.resetAll).setJob 1).completeCmd q.val cOK 0 0).progress.settle) ∧
     (fld c.desc.w0 7 0 = 0x07 → s.judge c (resvWords c.desc [2, 3, 4, 5, 6, 7]) [2] = none →
       exec (.preempt q) s = .next (s.mapCmd q.val (fun c => { c with begun := true })).progress.settle) ∧
     (fld c.desc.w0 7 0 = 0x08 → s.judge c (resvWords c.desc [2, 3, 4, 5, 6, 7]) [3] = none →
       exec (.resume q) s = .next (s.resumeJob.completeCmd q.val cOK 0 0).progress.settle) ∧
     (fld c.desc.w0 7 0 = 0x09 → s.genBase = 2 → s.judge c (resvWords c.desc [4, 5, 6, 7] ++
         [(2, 0, cCONFLICT, c.desc.w2 != s.reg pCFE 0x1C0), resv c.desc 3 63 3]) [2] = none →
       exec (.stepCommit q) s = .next ((({ s with hcq := { s.hcq with commits := s.hcq.commits ++ [q.val] } } : State).mapCmd
         q.val (fun c => { c with begun := true })).progress.settle)) ∧
     (fld c.desc.w0 7 0 = 0x0A → s.readRoom c.desc = true → s.cmdReads q.val xferSpans = true → s.judge c (s.xferChecks c) [1, 2, 3, 6] = none →
       exec (.xfer q) s = .next (s.startXfer q.val c.desc).progress.settle) ∧
     (fld c.desc.w0 7 0 = 0x0B → s.cmdReads q.val s.snapSpans = true → s.judge c (s.snapChecks c) [2, 3, 6] = none →
       exec (.snapshot q) s = .next (s.startSnap q.val c.desc).progress.settle) ∧
     (fld c.desc.w0 7 0 = 0x0C → s.judge c (s.attestChecks c) unfrozen = none →
       exec (.attest q) s = .next (s.startAttest q.val c.desc).progress.settle)) ∧
  (∀ (s : State) (q : QueueId) (c : Cmd), s.live = true → (s.queue q.val).cur = some c → c.begun = true → c.moved = c.total →
     (fld c.desc.w0 7 0 = 0x0A → exec (.xferComplete q) s = .next (match c.stop with
       | some e => s.completeCmd q.val e.1 e.2 0
       | none => (s.xferSignal c.desc).2.2.completeCmd q.val (s.xferSignal c.desc).1 (s.xferSignal c.desc).2.1 0).progress.settle) ∧
     (fld c.desc.w0 7 0 = 0x0B → exec (.pinRelease q) s =
       .next ((s.dropPins q.val).completeCmd q.val (c.stop.getD (cOK, 0)).1 (c.stop.getD (cOK, 0)).2 c.total).progress.settle))

/-- A refused command completes with the code of its first refusal, class 0 and RESULT 0, and has no other effect (R398, R399):
here NOP, UNLOAD, STOP, PREEMPT and RESUME, whose reserved words are their only fields. -/
def Obligations.RefusedCommandCompletes : Prop :=
  ∀ (s : State) (q : QueueId) (c : Cmd) (code op : Nat) (e : QueueId → Instr) (states : List Nat), s.live = true →
    (s.queue q.val).cur = some c → c.begun = false →
    (op, e, states) ∈ [(0x01, Instr.nop, unfrozen), (0x04, Instr.unload, [1, 6]), (0x06, Instr.stop, [2, 3, 6]),
      (0x07, Instr.preempt, [2]), (0x08, Instr.resume, [3])] →
    fld c.desc.w0 7 0 = op → s.judge c (resvWords c.desc [2, 3, 4, 5, 6, 7]) states = some code →
    exec (e q) s = .next (s.completeCmd q.val code 0 0).progress.settle

/-! ## Host Ethernet -/

/-- RDMA_WRITE, RDMA_READ, SEND_REJECT, RDMA_ATOMIC_REJECT and RDMA_RESPONSE on a port that takes frames and a QP that is connected and
whole (R388 to R392): an operation that its memory region allows is carried out and acknowledged or answered; one that it does not,
and every Send and atomic, is refused; a response ends what it answers. CM_REQUEST, CNP, ECN_MARK, RATE_RECOVER, QP_ERR, ROCE_RETRY_TIMEOUT, ETH_LINK_UP, ETH_LINK_DOWN, ETH_FCS_ERR and PFC_PAUSE (R385 to
R393, R409): a listed address connects while a QP is free and another is refused; a CNP halves the rate of its QP, down to 1 %, and
recovery adds 5 %, up to the port rate; what is outstanding is sent again while retries are left, and then the QP is broken; a port that trains comes UP in a mode that its configuration allows and goes
back to training; a spoilt frame is counted. -/
def Obligations.EthernetRows : Prop :=
  (∀ (s : State) (p : EthId) (qpn : Nat), s.portServes p.val = true → s.qpUsable p.val qpn = true →
     (∀ (key : BitVec 32) (a : BitVec 48) (d : List Byte),
       let t := s.receive p.val (s.frames p.val d.length)
       (∀ warm u, s.rdmaAllowed p.val key.toNat a.toNat d.length true = true → t.rdmaStore a.toNat d = some (warm, u) →
         let v := (u.emit (.rdmaAck p.val qpn)).transmit p.val 1
         exec (.rdmaWrite p qpn key a d) s = .next (if warm then v.warmReset 2 else v).progress.settle) ∧
       (s.rdmaAllowed p.val key.toNat a.toNat d.length true = false →
         exec (.rdmaWrite p qpn key a d) s = .next (t.accessNak p.val qpn).progress.settle)) ∧
     (∀ (key : BitVec 32) (a : BitVec 48) (n : Nat),
       (s.rdmaAllowed p.val key.toNat a.toNat n false = true → a.toNat < regBase → s.memWaits a.toNat n = false) →
       exec (.rdmaRead p qpn key a n) s = .next (if s.rdmaAllowed p.val key.toNat a.toNat n false
         then (s.receive p.val 1).rdmaFetch p.val qpn a.toNat n else (s.receive p.val 1).accessNak p.val qpn).progress.settle) ∧
     exec (.sendReject p qpn) s = .next ((s.receive p.val 1).rdmaRefuse p.val qpn 1).progress.settle ∧
     exec (.rdmaAtomicReject p qpn) s = .next ((s.receive p.val 1).accessNak p.val qpn).progress.settle ∧
     (∀ (r : RdmaResp) (t : State), (s.receive p.val 1).takeResponse p.val qpn r = some t →
       exec (.rdmaResponse p qpn r) s = .next t.progress.settle)) ∧
  (∀ (s : State) (p : EthId) (qpn : Nat),
     (s.portTakes p.val = true →
       let t := s.receive p.val 1
       (s.portServes p.val = true → ∀ (ip : BitVec 128) (retries : Fin 8), qpn < 2 ^ 24 →
         (s.mayConnect p.val ip.toNat = true → s.qpCount p.val < 1024 → s.qpUsable p.val qpn = false →
           exec (.cmRequest p ip ⟨qpn, retries⟩) s = .next (t.connect p.val ip.toNat qpn retries.val).progress.settle) ∧
         (s.mayConnect p.val ip.toNat = false → exec (.cmRequest p ip ⟨qpn, retries⟩) s =
           .next (((t.emit (.cmReject p.val false)).transmit p.val 1).raise (pRCE p.val) 3).progress.settle)) ∧
       (s.portServes p.val = true → s.qpUsable p.val qpn = true →
         exec (.cnp p qpn) s = .next (t.mapQp p.val qpn (fun k => { k with rate := max (1 / 100) (k.rate / 2) })).progress.settle ∧
         ∀ us, exec (.ecnMark p qpn us) s = .next (if bitAt (s.reg (pRCE p.val) 0x100) 8 && decide (s.rf (pRCE p.val) 0x100 31 16 ≤ us)
           then (t.emit (.cnp p.val qpn)).transmit p.val 1 else t).progress.settle) ∧
       (∀ prio, exec (.pfcPause p prio) s = .next (t.addReg (pETH p.val) 0x140 1).progress.settle) ∧
       exec (.ethFcsErr p .fcs) s = .next ((s.addReg (pETH p.val) 0x118 1).addReg (pETH p.val) 0x128 1).settle ∧
       exec (.ethFcsErr p .fecUncorrectable) s =
         .next (((s.addReg (pETH p.val) 0x118 1).addReg (pETH p.val) 0x138 1).raise (pETH p.val) 2).progress.settle) ∧
     (s.live = true → s.qpUsable p.val qpn = true →
       exec (.rateRecover p qpn) s = .next (s.mapQp p.val qpn (fun k => { k with rate := min 1 (k.rate + 1 / 20) })).settle ∧
       ∀ k, s.findQp p.val qpn = some k → s.outstanding k ≠ 0 →
         (k.tries < k.retries → exec (.roceRetryTimeout p qpn) s =
           .next (((s.addReg (pRCE p.val) 0x138 1).transmit p.val (s.outstanding k)).mapQp p.val qpn
             (fun k => { k with tries := k.tries + 1 })).settle) ∧
         (k.tries = k.retries →
           exec (.qpErr p qpn) s = .next ((s.breakQp p.val qpn).raise (pRCE p.val) 0).progress.settle)) ∧
     (∀ m : Fin 6, s.enabled (pETH p.val) = true → s.live = true → s.ethLink p.val % 4 ≠ 2 → s.modeOk p.val m.val = true →
       exec (.ethLinkUp p m) s =
         .next ((s.setReg (pETH p.val) 0x108 (BitVec.ofNat 64 (m.val * 16 + 2))).raise (pETH p.val) 0).progress.settle) ∧
     (s.enabled (pETH p.val) = true → s.ethLink p.val % 4 = 2 →
       exec (.ethLinkDown p) s = .next ((s.setReg (pETH p.val) 0x108 1).raise (pETH p.val) 1).progress.settle))

/-- R390: a remote operation that its memory region does not allow changes no byte of memory, no poison, no core and no array: only the
port's registers, an answer and the ACCESS event. -/
def Obligations.RefusedRdmaKeepsMemory : Prop :=
  ∀ (s : State) (p : EthId) (qpn : Nat),
    (s.accessNak p.val qpn).mem = s.mem ∧ (s.accessNak p.val qpn).cores = s.cores ∧ (s.accessNak p.val qpn).arrs = s.arrs ∧
    (s.accessNak p.val qpn).txn = s.txn ∧ (s.accessNak p.val qpn).sync = s.sync ∧
    ∀ q o, o < 4096 → Safety.EventReg q o = false → (q, o) ≠ (pRCE p.val, 0x130) → (q, o) ≠ (pETH p.val, 0x120) →
      (s.accessNak p.val qpn).reg q o = s.reg q o

/-! ## Torus -/

/-- LINK_SIGNAL_DETECT, LANE_LOCK, LANE_LOCK_TIMEOUT, TRAINING_RECORD, LINK_UP and TOR_RETRAIN_REQ (R327 to R330): a port in training
opens its lock window, takes its lanes, sends its record when one fails to lock and gives up when more do, takes its partner's
record and goes UP when its crossing is aligned; one that has ended its training retrains at an order or at its partner's signal. LINK_PACKET_RECEIVE, LINK_ACK, LINK_NAK, REPLAY_TIMEOUT, PACKET_FORWARD and PACKET_DEPART on a port that is UP (R331, R333, R340 to
R345): a packet that arrives is judged by `State.receivePacket`; acknowledged packets leave the replay buffer; a NAK and a timeout
resend; a router takes the packet that `State.takeInput` gives; the packet of the next slot departs. -/
def Obligations.LinkRows : Prop :=
  (∀ (s : State) (p : PortId) (l : LaneId),
     let k := s.port p.val
     (s.linkState p.val = 1 →
       (k.step = 1 → k.window = false → exec (.linkSignalDetect p l) s = .next (s.openWindow p.val).settle) ∧
       (k.mayLock l.val = true → (s.lockLane p.val l.val).linkState p.val = 1 →
         exec (.laneLock p l) s = .next (s.lockLane p.val l.val).settle) ∧
       (k.step = 2 → 2 ≤ k.unlocked.length → exec (.laneLockTimeout p) s =
         .next ((s.setReg (pTOR p.val) 0x118 (BitVec.ofNat 64 (laneBits k.unlocked))).giveUp p.val 3).settle) ∧
       (k.step = 2 → k.unlocked.length = 1 → exec (.laneLockTimeout p) s = .next (s.exchange p.val).settle) ∧
       (∀ r, k.step = 3 → (s.takeRecord p.val r).linkState p.val = 1 →
         exec (.trainingRecord p r) s = .next (s.takeRecord p.val r).settle) ∧
       (k.step = 7 → s.boot.aligned.contains (portXing p.val) = true → exec (.linkUp p) s = .next (s.portUp p.val).settle)) ∧
     (s.live = true → 2 ≤ s.linkState p.val → s.linkState p.val ≤ 5 →
       exec (.linkSignalDetect p l) s = .next ((s.relinkPort p.val).openWindow p.val).settle) ∧
     (∀ src, s.reaches src = true → s.pageCode (pTOR p.val) 0x150 = none → s.linkState p.val ≠ 1 → s.linkState p.val ≠ 6 →
       exec (.torRetrainReq p src) s = .next (s.relinkPort p.val).progress.settle)) ∧
  (∀ (s : State) (p : PortId), s.linkState p.val = 2 →
     (∀ (pk : Packet) (corr : Nat), pk.payload.length ≤ 8192 → s.inUnits p.val (laneOf pk) + bufUnits pk ≤ 288 →
       ∀ q : Fin 4096, exec (.linkPacketReceive p q true corr 0 pk) s =
         .next (s.receivePacket p.val q.val true corr 0 pk).settle) ∧
     (∀ (pk : Packet) (corr bad : Nat) (q : Fin 4096), pk.payload.length ≤ 8192 →
       exec (.linkPacketReceive p q false corr bad pk) s = .next (s.receivePacket p.val q.val false corr bad pk).settle) ∧
     (∀ q : Fin 4096, exec (.linkAck p q) s =
       .next (s.setPort p.val ((s.port p.val).ackTo (s.nextSeq p.val) ((q.val + 1) % 4096))).settle) ∧
     (∀ q : Fin 4096, s.live = true → exec (.linkNak p q) s =
       .next ((s.setPort p.val ((s.port p.val).ackTo (s.nextSeq p.val) q.val)).resend p.val).settle) ∧
     (s.live = true → (s.port p.val).replay ≠ [] → exec (.replayTimeout p) s = .next (s.resend p.val).settle) ∧
     (∀ (i : Nat) (o : OutPkt) (vc : VcId), s.nextSlot p.val = some (i, o) → slotVc i = vc.val →
       exec (.packetDepart p vc) s = .next (s.departPacket p.val i o).settle) ∧
     (∀ (n : Fin 13) (d : DieId) (vc : VcId) (pk : Packet) (t : State), (n.val = 0 ∨ (n.val - 1) / 3 = d.val) →
       s.takeInput n.val d.val vc.val = some (pk, t) → s.live = true →
       exec (.packetForward n d vc) s = .next (t.routePacket n.val d.val vc.val
         (if n.val = 0 then none else some (s.rf (pTOR (n.val - 1)) 0x108 11 9)) pk).progress.settle))

/-- R331: an acknowledgement up to a sequence number removes from the replay buffer exactly the packets before it, in their order, and a
link whose replay buffer it shortens has made progress. -/
def Obligations.AcknowledgedPacketsLeave : Prop :=
  ∀ (k : Port) (next n : Nat),
    (∀ e, e ∈ (k.ackTo next n).replay → e ∈ k.replay) ∧ (k.ackTo next n).replay.length ≤ k.replay.length ∧
    (∃ gone, gone ++ (k.ackTo next n).replay = k.replay) ∧
    ((k.ackTo next n).replay.length < k.replay.length → (k.ackTo next n).stuck = 0)

/-- R340: CREDIT_RETURN adds the units that have drained, and never leads to more than the 288 units of the downstream buffer: more
than that is no event. A packet departs only against credits that cover it. -/
def Obligations.CreditsStayWithinTheBuffer : Prop :=
  ∀ (s : State) (p : PortId) (vc : VcId) (units : Nat), Safety.Inv s → s.linkState p.val = 2 →
    (s.credits p.val vc.val + units ≤ 288 → ∃ u : State, exec (.creditReturn p vc units) s = .next u.settle ∧
      u.credits p.val vc.val = s.credits p.val vc.val + units ∧
      (∀ w : VcId, w ≠ vc → u.credits p.val w.val = s.credits p.val w.val) ∧ u.mem = s.mem) ∧
    (288 < s.credits p.val vc.val + units → exec (.creditReturn p vc units) s = .fault .notEnabled) ∧
    (∀ i o, s.nextSlot p.val = some (i, o) → bufUnits o.pkt ≤ s.credits p.val (slotVc i))

/-- What a command that only moves a link, a crossing, a rate or the standby supply leaves: CREDIT_RETURN, LINK_ACK, CROSSING_FILLED,
DATAPATH_RELEASE, START_TICK, RATE_RECOVER, VSTBY_GOOD and KH_SESSION_TIMEOUT change no memory, core, array, sync object,
transaction, collective, step, host queue or slot of the sequencer, and no register but the credits of the port. -/
def Obligations.LinkAndClockRowsFrame : Prop :=
  ∀ (s t : State) (c : Instr), Safety.Inv s →
    ((∃ p vc n, c = .creditReturn p vc n) ∨ (∃ p q, c = .linkAck p q) ∨ (∃ d x, c = .crossingFilled d x) ∨
      (∃ d x, c = .datapathRelease d x) ∨ (∃ p, c = .startTick p) ∨ (∃ p q, c = .rateRecover p q) ∨ c = .vstbyGood ∨
      c = .khSessionTimeout) →
    exec c s = .next t →
    t.mem = s.mem ∧ t.cores = s.cores ∧ t.arrs = s.arrs ∧ t.sync = s.sync ∧ t.txn = s.txn ∧ t.coll = s.coll ∧ t.step = s.step ∧
    t.hcq = s.hcq ∧ t.sec = s.sec ∧ t.thm = s.thm ∧
    ∀ q o, o < 4096 → (∀ p vc n, c = .creditReturn p vc n → (q, o) ≠ (pTOR p.val, 0x140)) → t.reg q o = s.reg q o

/-- WR, RD, AOP, ACK, RDATA, ARESP, NAK and MGMT at their destination (R333, R339, R373): each is served by the unit that owns its
address, waits where that memory is in hold, or ends the request that it answers; a MGMT packet goes to the management controller. -/
def Obligations.PacketServiceRows : Prop :=
  ∀ (s : State) (p : Packet),
    (pktOk 0x18 1 128 p = true → exec (.mgmt p) s = .next ((s.takeArrival p).emit (.mgmt p)).settle) ∧
    (s.live = true →
      (∀ t, pktOk 0x01 1 128 p = true → (s.takeArrival p).heldIn (pktAddr p) p.payload.length = none →
        (s.takeArrival p).serveWr p = some t → exec (.wr p) s = .next (t.servedBy .torus (pktAddr p)).progress.settle) ∧
      (∀ t, pktOk 0x02 0 0 p = true →
        (s.takeArrival p).heldIn (pktAddr p / 64 * 64) (64 * (fld p.w0 14 8 + 1)) = none → (s.takeArrival p).serveRd p = some t →
        exec (.rd p) s = .next (t.servedBy .torus (pktAddr p / 64 * 64)).progress.settle) ∧
      (pktOk 0x03 1 1 p = true → (s.takeArrival p).heldIn (pktAddr p) (aopWidth (fld p.w2 63 60)) = none →
        (s.takeArrival p).closing (pktAddr p) (aopWidth (fld p.w2 63 60)) = false →
        exec (.aop p) s = .next (((s.takeArrival p).serveAop p).servedBy .torus (pktAddr p)).progress.settle) ∧
      (∀ h t, pktOk 0x01 1 128 p = true → (s.takeArrival p).heldIn (pktAddr p) p.payload.length = some h →
        (s.takeArrival p).holdReq { what := .cmd (.wr p), line := h / 64, cls := none, die := s.homeDie (pktAddr p) } = some t →
        exec (.wr p) s = .next t.progress.settle) ∧
      (pktOk 0x08 0 0 p = true → exec (.ack p) s = .next ((s.takeArrival p).takeAck p).progress.settle) ∧
      (∀ t, pktOk 0x09 1 128 p = true → (s.takeArrival p).takeRdata p = some t → exec (.rdata p) s = .next t.progress.settle) ∧
      (∀ t, pktOk 0x0A 1 1 p = true → (s.takeArrival p).takeAresp p = some t → exec (.aresp p) s = .next t.progress.settle) ∧
      (pktOk 0x0B 0 0 p = true → exec (.nak p) s = .next ((s.takeArrival p).takeNak p).progress.settle))

/-! ## Power and thermal -/

/-- POWER_WINDOW, THERMAL_SAMPLE, RAMP_TOKEN_GRANT, RAMP_END, ENV_HOLD_EXPIRY and LEND_OFFER (R432 to R444, R436): a window and a sample
are taken from S1 on; the first request in order gets a free token; a ramp that holds one reaches its target; an envelope held
above its demand falls back; a resting cluster offers what it does not need. -/
def Obligations.PowerRows : Prop :=
  ∀ s : State,
    (s.board.pwrgood = true → 1 ≤ s.stage →
      (∀ mv a w j, mv < 65536 → a < 65536 → w < 65536 →
        exec (.powerWindow mv a w j) s = .next (s.window mv a w j).progress.settle) ∧
      (∀ (d : DieId) (l : List Sensor), l.length = 64 → (∀ k ∈ l, -32768 ≤ k.temp ∧ k.temp ≤ 32767) →
        exec (.thermalSample d l) s = .next (s.sample d.val l).progress.settle)) ∧
    (∀ i : IslandId, s.firstToken i.val = true → s.tokenFree i.val = true → exec (.rampTokenGrant i) s =
      .next (({ s with pwr := { s.pwr with tokens := s.pwr.tokens.filter (fun j => j != i.val) } } : State).rampRegs).settle) ∧
    (∀ (i : IslandId) (v : Nat), (s.island i.val).target = some v → s.ramping.contains i.val = true →
      exec (.rampEnd i) s = .next (s.rampDone i.val v).progress.settle) ∧
    (∀ i : Fin 32, s.live = true → s.pwr.stopped = none →
      ((s.island i.val).target = none → s.committed i.val < s.envelope i.val →
        exec (.envHoldExpiry i) s = .next (s.requestRamp i.val (s.committed i.val)).settle) ∧
      (let page := pSYN (144 + i.val / 8)
       s.enabled page = true → s.rf page 0x180 1 0 = 1 → (s.island i.val).lends = false →
        s.floorDemand i.val < s.capCeiling i.val → s.rests i.val = true →
        exec (.lendOffer i) s = .next ((s.setIsland i.val { s.island i.val with lends := true }).requestRamp i.val
          (s.floorDemand i.val)).settle))

/-- PWRGOOD_FALL, VSTBY_LOSS, VSTBY_GOOD, VIN_UV, VIN_OV, IVR_OC and POWER_STOP_CLEAR (R439, R445, R446): each power-stop cause orders
the stop of its number; loss of power engages the bleed; a stop whose cause is gone is cleared. -/
def Obligations.PowerStopRows : Prop :=
  ∀ s : State,
    (s.board.pwrgood = true →
      (let t := s.orderStop 5 0
       exec .pwrgoodFall s = .next ({ t with
        board := { t.board with pwrgood := false }
        pwr := { t.pwr with bleed := true } } : State).progress.settle) ∧
      (1 ∉ s.pwr.present → exec .vinUv s = .next (s.orderStop 1 0).progress.settle) ∧
      (2 ∉ s.pwr.present → exec .vinOv s = .next (s.orderStop 2 0).progress.settle) ∧
      (∀ i : IslandId, exec (.ivrOc i) s = .next (s.overcurrent i.val).progress.settle) ∧
      (s.pwr.present = [] → (s.pwr.stopped = some 1 ∨ s.pwr.stopped = some 2 ∨ s.pwr.stopped = some 3) →
        exec .powerStopClear s = .next ({ s with
          pwr := { s.pwr with stopped := none }
          board := { s.board with alert := s.board.alert && !s.alertFree } } : State).progress.settle)) ∧
    (s.board.vstby = true → s.board.pwrgood = false → ∃ b : Bool, exec .vstbyLoss s = .next ({ s with
        free := s.free + 1
        board := { s.board with
          pwrgood := false
          vstby := false }
        pwr := { s.pwr with bleed := b } } : State).progress.settle) ∧
    (s.board.vstby = false → exec .vstbyGood s = .next ({ s with board := { s.board with vstby := true } } : State).settle)

/-! ## Bring-up -/

/-- POWER_GOOD, RESET_N, STRAP_SAMPLE, STAGE_S1, STAGE_S2, STAGE_S3 and the failures of training (R411 to R426): power-good and RESET_N
start the package anew; the straps are sampled once; each stage is reached from the one before it, in its time, with its crossings
aligned; an island that does not reach its voltage, a link or a stack that does not train fails the boot with its cause. RECOVERY_DATAGRAM, BOOT_GO, WARM and CORE_RESET (R416, R426, R427): in recovery the bytes of the image are taken and an empty datagram
ends it; GO in boot mode 1 lets bring-up finish; a confirmed WARM resets the package; a core of an idle package is reset. -/
def Obligations.BringupRows : Prop :=
  (∀ s : State,
     (s.board.pwrgood = false → s.board.vstby = true → exec .powerGood s = .next (s.coldReset 0).settle) ∧
     (s.board.pwrgood = true → exec .resetN s = .next (s.coldReset 1).settle) ∧
     (∀ (x y z : Fin 32) (prof : Fin 8) (boot : Fin 4), s.board.pwrgood = true → s.stage = 0 → s.boot.strapped = false →
       let t := (s.setReg (pRTR 0) 0x100 (BitVec.ofNat 64 (z.val + 32 * y.val + 1024 * x.val + 65536 * prof.val))).setRf
         pCFE 0x200 17 16 boot.val
       let t : State := { t with boot := { t.boot with strapped := true } }
       exec (.strapSample x y z prof boot) s = .next (if boot.val = 2 then t.enterRecovery
         else if boot.val = 3 then ({ t with boot := { t.boot with
           mscUp := false
           recovery := false } } : State).alert else t).settle) ∧
     (∀ ms, s.board.pwrgood = true → s.stage = 0 → s.boot.strapped = true → s.boot.mscUp = true → ms < 65536 →
       s.inTime ms 150 = true → exec (.stageS1 ms) s = .next (s.setStage 1 ms).firmwareCheck.settle) ∧
     (∀ ms, s.powered = true → s.stage = 1 → s.bootFail = 0 → (∀ x ∈ firstXings, x ∈ s.boot.aligned) →
       s.rf pCFE 0x208 15 0 ≤ ms → ms < 65536 → s.inTime ms (if 2 ≤ s.rf pCFE 0x200 26 24 then 400 else 550) = true →
       s.selectable 0 = true → exec (.stageS2 ms false) s = .next (s.enterS2 ms).settle) ∧
     (∀ ms, s.powered = true → s.mayFinish = true → s.badDie = none → (∀ x ∈ allXings, x ∈ s.boot.aligned) →
       s.rf pCFE 0x208 31 16 ≤ ms → ms < 65536 → s.inTime ms (if 2 ≤ s.rf pCFE 0x200 26 24 then 4500 else 5000) = true →
       exec (.stageS3 ms none) s = .next (s.enterS3 ms).settle) ∧
     (∀ (ms : Nat) (i : Fin 36), s.powered = true → s.stage = 2 → s.bootFail = 0 → i.val ≠ 0 → s.unsettled i.val = true →
       exec (.stageS3 ms (some i)) s = .next (s.failBoot 2 6 (if i.val < 32 then i.val / 8 else i.val - 32)
         (if i.val < 32 then i.val % 8 else 0)).settle) ∧
     (s.training = true →
       (∀ l : UcieId, exec (.ucieTrainTimeout l) s =
         .next (s.failBoot 2 3 (if l.val = 1 then 2 else if l.val = 3 then 1 else 0) l.val).settle) ∧
       ∀ i : StackId, exec (.hbmTrainTimeout i) s = .next (s.failBoot 2 4 (i.val / 5) i.val).settle)) ∧
  (∀ (s : State) (src : Src),
     (s.boot.recovery = true → exec (.recoveryDatagram 0 []) s = .next s.recoverNow.settle) ∧
     (s.boot.recovery = true → ∀ (off : Nat) (d : List Byte), off < 2 ^ 32 → 8 ≤ d.length → d.length ≤ 1024 →
       ∃ u : State, exec (.recoveryDatagram off d) s = .next u.settle ∧ u = { s with boot := { s.boot with recv :=
         (d.foldl (fun (acc : Tab Byte × Nat) (b : Byte) => (Tab.put acc.1 acc.2 b, acc.2 + 1)) (s.boot.recv, off)).1 } }) ∧
     (s.reaches src = true → s.pageCode pCFE 0x210 = none →
       (s.bootMode = 1 → s.stage = 2 → s.job = 0 →
         exec (.bootGo src) s = .next (s.setRf pCFE 0x200 8 8 1).progress.settle) ∧
       exec (.warm 0xA5 false src) s = .next (s.warmReset 2).progress.settle) ∧
     (s.reaches src = true → s.pageCode pCFE 0x218 = none → ∀ c : Byte, c.toNat ≤ 143 → s.jobBusy = false → s.job ≠ 5 →
       s.hcq.starting = none → s.coreServed c.toNat = true →
       exec (.coreReset c src) s = .next (s.coreResetNow c.toNat).progress.settle))

/-- R25, R26: what a crossing passes comes out whole and in its order, with no idle token among it; nothing of it stays in the
buffer or in the queue of the presenting side. With 15 tokens in the buffer the presenting side keeps its data and presents
nothing, and with fewer it presents one token, its oldest datum or an idle one, so that the buffer never holds more than 16. -/
def Obligations.CrossingPassesEveryDatum : Prop :=
  (∀ (b : XBuf) (ts : List Token), (∀ t ∈ b.held ++ ts, t ≠ .idle) →
    let r := b.pass ts
    r.1 = (b.buf ++ b.held ++ ts).filter (fun t => decide (t ≠ .idle)) ∧ r.2.held = [] ∧ (∀ t ∈ r.2.buf, t = .idle) ∧
    (b.buf.length ≤ 16 → r.2.buf.length ≤ 16)) ∧
  ∀ b : XBuf,
    (15 ≤ b.buf.length → b.present = b) ∧
    (b.buf.length < 15 → b.present.buf.length = b.buf.length + 1 ∧
      (∀ t r, b.held = t :: r → b.present = { buf := b.buf ++ [t], held := r }) ∧
      (b.held = [] → b.present = { b with buf := b.buf ++ [.idle] })) ∧
    (∀ t r, b.buf = t :: r → b.take = (if t = .idle then none else some t, { b with buf := r }))

/-- CROSSING_FILLED, START_TICK, DATAPATH_RELEASE and CROSSING_TIMEOUT (R27, R29, R31): a crossing that aligns fills; the start tick serves the
whole group once every crossing of it is filled, or one torus port; then its datapath is released; one that does not fill in time
fails the boot with its die. -/
def Obligations.CrossingRows : Prop :=
  ∀ (s : State) (d : DieId) (x : XingId),
    let n := 13 * d.val + x.val
    (s.aligning n = true → s.boot.filled.contains n = false →
      exec (.crossingFilled d x) s =
        .next ((({ s with boot := { s.boot with filled := insSet s.boot.filled n } } : State).emptyXing n).fillXing n).settle ∧
      (s.stage < 3 → exec (.crossingTimeout d x) s =
        .next ((s.setReg (pRAS 0) 0x020 (BitVec.ofNat 64 (65536 + x.val * 4096 + d.val * 256))).failBoot 1 2 d.val 0).settle)) ∧
    (s.live = true → (∀ y ∈ s.tickGroup, y ∈ s.boot.filled) → (∃ y ∈ s.tickGroup, y ∉ s.boot.ticked) →
      exec (.startTick none) s = .next (s.tick s.tickGroup).settle) ∧
    (∀ p : PortId, s.aligning (portXing p.val) = true → s.portAligns (portXing p.val) = true →
      portXing p.val ∈ s.boot.filled → portXing p.val ∉ s.boot.ticked →
      exec (.startTick (some p)) s = .next (s.tick [portXing p.val]).settle) ∧
    (s.live = true → n ∈ s.boot.ticked → n ∉ s.boot.aligned → exec (.datapathRelease d x) s =
      .next ({ s with boot := { s.boot with aligned := insSet s.boot.aligned n } } : State).settle)

/-! ## Errors, freezes and Keyhole -/

/-- HANDSHAKE_TIMEOUT, ISSUE_PARITY, FABRIC_PARITY, UCIE_RETRY_EXHAUSTED, CROSSING_OVERFLOW, SEQUENCER_WATCHDOG, MSC_WDOG, FATAL_HOLD_EXPIRY
and RETIRE_CORE (R452 to R464, R475): an error of a core faults its contexts; one of the fabric, of a link or of a crossing is
fatal, with its detector, die and unit; the MSC restarts after its watchdog; the hold of a fatal freeze ends in a warm reset; a
core is retired at the host's order. SHUTTER_N, FREEZE, FRZ and RES (R465 to R469): the pin and the host freeze a running package whose Shutter is enabled; a symbol of
another node freezes it and is passed on; the symbol that names the freeze in force resumes it. -/
def Obligations.ErrorAndFreezeRows : Prop :=
  (∀ s : State,
     (s.live = true → ∀ n : CoreId, s.coreServed n.val = true →
       exec (.handshakeTimeout (.core n)) s = .next (s.coreFault n.val false).progress.settle ∧
       exec (.issueParity n) s = .next (s.coreFault n.val true).progress.settle) ∧
     (s.live = true → 2 ≤ s.stage → ∀ (d : DieId) (cl : Fin 8),
       exec (.handshakeTimeout (.fabric d cl)) s = .next (s.fabricFatal 1 d.val cl.val).progress.settle) ∧
     (s.frozen ≠ 2 → 2 ≤ s.stage → ∀ (d : DieId) (cl : Fin 8),
       exec (.fabricParity d cl) s = .next (s.fabricFatal 2 d.val cl.val).progress.settle) ∧
     (s.frozen ≠ 2 → 3 ≤ s.stage → ∀ (l : UcieId) (far : Bool),
       exec (.ucieRetryExhausted ⟨l, far⟩) s = .next (s.fabricFatal 3 (ucieDie l.val far) l.val).progress.settle) ∧
     (s.frozen ≠ 2 → ∀ (d : DieId) (x : XingId), 13 * d.val + x.val ∈ s.boot.aligned →
       exec (.crossingOverflow d x) s = .next (s.fabricFatal 4 d.val x.val).progress.settle) ∧
     (s.live = true → 1 ≤ s.stage → s.sec.seqr.trial = false →
       exec .sequencerWatchdog s = .next ((s.injectTimed (pRAS 0) 1).2.fatal 5 0 0 (s.injectTimed (pRAS 0) 1).1).progress.settle) ∧
     (s.board.vstby = true → s.boot.mscUp = true → 1 ≤ s.stage →
       exec .mscWdog s = .next (((s.injectTimed (pRAS 0) 2).2.restartMsc 0).raise (pRAS 0) 5).progress.settle) ∧
     (s.frozen = 2 → s.shut.session = none → s.rf (pRAS 0) 0x100 47 32 ≠ 0 →
       exec .fatalHoldExpiry s = .next (s.warmReset 3).settle) ∧
     (∀ (c : Byte) (src : Src), s.reaches src = true → s.pageCode (pRAS 0) 0x138 = none → c.toNat ≤ 143 →
       exec (.retireCore c src) s = .next (s.addSpareSlot (s.slotOf c.toNat)).progress.settle)) ∧
  (∀ (s : State) (src : Src),
     (s.enabled pSHT = true → bitAt (s.reg pSHT 0x100) 4 = true → s.live = true →
       exec .shutterN s = .next (s.freezeHere 1 1 0).settle) ∧
     (s.reaches src = true → s.pageCode pSHT 0x108 = none → s.enabled pSHT = true → s.live = true →
       exec (.freeze src) s = .next (s.freezeHere 1 2 (s.rf pSHT 0x100 1 0)).progress.settle) ∧
     (∀ (p : PortId) (sc k : Fin 3) (o : BitVec 15) (q : BitVec 16), s.linkState p.val = 2 →
       exec (.frz p sc k o q) s = .next (s.takeFrz p.val sc.val k.val o.toNat q.toNat).settle ∧
       (sc = 0 → s.takeFrz p.val sc.val k.val o.toNat q.toNat = s) ∧
       (s.live = true → (sc = 2 ∨ (sc = 1 ∧ s.inSlice o.toNat = true)) → s.takeFrz p.val sc.val k.val o.toNat q.toNat =
         s.freeze 1 5 sc.val o.toNat q.toNat k.val (some p.val))) ∧
     (∀ (p : PortId) (o : BitVec 15) (q : BitVec 16), s.linkState p.val = 2 → s.frozen = 1 →
       s.sameFreeze o.toNat q.toNat = true →
       ∀ low : Bool, exec (.res p o q low) s = .next (s.resume low (some p.val)).2.progress.settle))

/-- R454, R465, R475: a fatal error of a running package records its detector, die and unit in RAS.FATAL, unless an earlier one since
reset stands there; it asserts ALERT_N and leaves the package in a fatal freeze, its job FROZEN, its memory as it was. -/
def Obligations.FatalErrorFreezes : Prop :=
  ∀ (s : State) (detector die unit : Nat) (inj : Bool), Safety.Inv s → s.live = true → 1 ≤ detector → detector ≤ 5 → die < 4 →
    unit < 256 →
    let t := s.fatal detector die unit inj
    t.frozen = 2 ∧ t.board.alert = true ∧ t.mem = s.mem ∧ t.cores = s.cores ∧
    t.boot.fatals = s.boot.fatals + 1 ∧
    t.reg (pRAS 0) 0x108 = (if bitAt (s.reg (pRAS 0) 0x108) 63 then s.reg (pRAS 0) 0x108
      else BitVec.ofNat 64 (2 ^ 63 + b2n inj * 2 ^ 62 + detector * 2 ^ 40 + die * 2 ^ 32 + unit * 2 ^ 16))

/-- R466: in a frozen package every clockless stage holds: no instruction is decoded or released, no engine, program, memory request,
transaction, collective, step, host queue or sync unit goes on, and no timer expires. None of those commands answers a next
state. -/
def Obligations.FrozenPackageStandsStill : Prop :=
  ∀ (s t : State) (c : Instr), s.live = false → Safety.Clocked c = true → exec c s ≠ .next t

/-- KH_OPEN, KH_READ, KH_WRITE, KH_RESUME, KH_RESET, KH_CLOSE and KH_SESSION_TIMEOUT, while the management controller serves (R470 to R473):
a request that comes over JTAG, or in a datagram from a source that the allow list of port 0 names, and that no condition refuses
has its effect; every other one that comes so is answered with its code and changes nothing else; a datagram from another source
has no effect. -/
def Obligations.KeyholeRows : Prop :=
  (∀ (s : State) (r : KhReq), s.khServed = true → r.via = .jtag → s.khTakes r = true) ∧
  (∀ (s : State) (r : KhReq), s.khTakes r = false → r.data.length = r.length →
    exec (.khOpen r) s = .next s.settle ∧ exec (.khWrite r) s = .next s.settle ∧ exec (.khReset r) s = .next s.settle ∧
    exec (.khClose r) s = .next s.settle ∧ (∀ low : Bool, exec (.khResume r low) s = .next s.settle) ∧
    (r.data = [] → exec (.khRead r) s = .next s.settle)) ∧
  ∀ (s : State) (r : KhReq), s.khTakes r = true →
    (r.data.length = r.length → exec (.khOpen r) s =
      .next (if s.khOpenCode r = cOK then s.khOpenNow r else s.khStatus 1 (s.khOpenCode r) r).settle) ∧
    (r.data = [] → exec (.khRead r) s =
      .next (if s.khReadCode r = cOK then s.khReadNow r else s.khStatus 2 (s.khReadCode r) r).settle) ∧
    (r.data.length = r.length → exec (.khWrite r) s = .next (if s.khWriteCode r = cOK then (s.khWriteNow r).2.khStatus 3 (s.khWriteNow r).1 r
      else s.khStatus 3 (s.khWriteCode r) r).settle) ∧
    (s.khPlainCode r = cOK →
      (s.frozen = 1 → ∀ low : Bool, exec (.khResume r low) s =
        .next (((s.resume low none).2.khStatus 4 (s.resume low none).1 r).progress).settle) ∧
      exec (.khReset r) s = .next ((s.khStatus 5 cOK r).warmReset 3).settle ∧
      exec (.khClose r) s = .next (({ s with shut := { s.shut with session := none } } : State).khStatus 6 cOK r).settle) ∧
    (s.shut.session.isSome = true → exec .khSessionTimeout s =
      .next ({ s with shut := { s.shut with session := none } } : State).settle)

/-- SEC_STAGE, SEC_VERIFY, STAGE_COMPLETE, ACTIVATE, CONFIRM, BURN and SMBUS_READ_WORD (R488 to R497, R507): a chunk of a kind that is in
range and not in trial makes SEC busy; the request that is busy ends; an image that is VALID is activated, one in trial confirmed
or burnt; the SMBus answers its word. -/
def Obligations.SecurityRows : Prop :=
  ∀ (s : State) (k : Fin 16) (src : Src), s.reaches src = true → s.pageCode pSEC 0x110 = none → s.pageCode pSEC 0x120 = none →
    s.pageCode pSEC 0x128 = none →
    (∀ (c : BitVec 16) (n : BitVec 12), 1 ≤ k.val → k.val ≤ 5 → 8 ≤ n.toNat → n.toNat ≤ 2048 → n.toNat % 8 = 0 → s.sec.busy = none →
      (k.val ≤ 3 → (s.slotsOf k.val).trial = false) →
      exec (.secStage k c n src) s = .next ((({ s with sec := { s.sec with
          busy := some ⟨k.val, c.toNat, n.toNat, true, false⟩ } } : State).setReg pSEC 0x118
          (BitVec.ofNat 64 (k.val * 16 + 1)))).progress.settle ∧
      ∀ go : Bool, exec (.secVerify k c n go src) s = .next ((({ s with sec := { s.sec with
          busy := some ⟨k.val, c.toNat, n.toNat, go, true⟩ } } : State).setReg pSEC 0x118
          (BitVec.ofNat 64 (k.val * 16 + 1)))).progress.settle) ∧
    (∀ j : StageJob, s.boot.mscUp = true → s.sec.busy = some j →
      let t : State := { s with sec := { s.sec with busy := none } }
      let t := if j.go then t.writeChunk j else t
      exec .stageComplete s =
        .next (if j.verify then t.endVerify j.kind else t.setReg pSEC 0x118 (BitVec.ofNat 64 (j.kind * 16))).settle) ∧
    (1 ≤ k.val → k.val ≤ 3 →
      (s.live = true → (s.slotsOf k.val).valid (1 - (s.slotsOf k.val).active) = true →
        exec (.activate k src) s = .next (s.activateSlot k.val).progress.settle) ∧
      ((s.slotsOf k.val).trial = true → exec (.confirm k src) s =
        .next (s.setSlotsOf k.val { s.slotsOf k.val with trial := false }).progress.settle)) ∧
    (s.sec.msc.trial = true → k.val = 1 →
      (∀ m ∈ s.activeMans, (s.manifest 1 s.sec.msc.active).svn ≤ m.svn) →
      ∃ u : State, exec (.burn k src) s = .next u.progress.settle ∧ u.sec.msc.trial = false ∧
        s.sec.rollback ≤ u.sec.rollback ∧ (s.manifest 1 s.sec.msc.active).svn ≤ u.sec.rollback ∧ u.mem = s.mem) ∧
    (∀ cmd : Byte, s.board.vstby = true → exec (.smbusReadWord cmd) s = .next (s.emit (.smbus (s.smbusWord cmd.toNat))).settle)

/-- R136: of the conditions of a descriptor that hold, the first is reported: the one at the lowest word, then the lowest bit, then the
lowest code; a descriptor of whose conditions none holds is not refused. -/
def Obligations.FirstRefusalIsReported : Prop :=
  ∀ cs : List Check,
    (firstRefusal cs = none ↔ ∀ c ∈ cs, c.2.2.2 = false) ∧
    ∀ r, firstRefusal cs = some r → (r.word, r.bit, r.code, true) ∈ cs ∧
      ∀ c ∈ cs, c.2.2.2 = true → r.word < c.1 ∨ (r.word = c.1 ∧ (r.bit < c.2.1 ∨ (r.bit = c.2.1 ∧ r.code ≤ c.2.2.1)))
end

