-- ==== Sys2Proof/Laws/Bits.lean ====
section
/-! SUPPORT. Fields of a word after one of its fields has been replaced. -/

namespace Sys2Proof.Machine

theorem fld_lt (w : Word) (hi lo : Nat) : fld w hi lo < 2 ^ (hi - lo + 1) := Nat.mod_lt _ (by positivity)

/-- The number that a word with a replaced field spells: what stands above, the field, what stands below. -/
theorem setFld_toNat (w : Word) {hi lo : Nat} (v : Nat) (h : lo ≤ hi) (h64 : hi < 64) :
    (setFld w hi lo v).toNat =
      (w.toNat / 2 ^ (hi + 1) * 2 ^ (hi - lo + 1) + v % 2 ^ (hi - lo + 1)) * 2 ^ lo + w.toNat % 2 ^ lo := by
  have hw : w.toNat < 2 ^ 64 := w.isLt
  have hm : (2 : Nat) ^ (hi + 1) = 2 ^ lo * 2 ^ (hi - lo + 1) := by rw [← pow_add]; congr 1; omega
  have h3 : (2 : Nat) ^ 64 = 2 ^ (hi + 1) * 2 ^ (63 - hi) := by rw [← pow_add]; congr 1; omega
  have hv : v % 2 ^ (hi - lo + 1) < 2 ^ (hi - lo + 1) := Nat.mod_lt _ (by positivity)
  have hb : w.toNat % 2 ^ lo < 2 ^ lo := Nat.mod_lt _ (by positivity)
  have hq : w.toNat / 2 ^ (hi + 1) < 2 ^ (63 - hi) := Nat.div_lt_of_lt_mul (by rw [← h3]; exact hw)
  unfold setFld fld
  simp only [Nat.shiftRight_eq_div_pow]
  have hd : w.toNat / 2 ^ (hi + 1) = w.toNat / 2 ^ lo / 2 ^ (hi - lo + 1) := by rw [hm, Nat.div_div_eq_div_mul]
  have e1 := Nat.div_add_mod w.toNat (2 ^ lo)
  have e2 := Nat.div_add_mod (w.toNat / 2 ^ lo) (2 ^ (hi - lo + 1))
  rw [hd] at hq ⊢
  set m := 2 ^ (hi - lo + 1)
  set p := 2 ^ lo
  set q := w.toNat / p / m
  set f := w.toNat / p % m
  set b := w.toNat % p
  have e3 : w.toNat = q * m * p + f * p + b := by
    have : w.toNat = p * (m * q + f) + b := by rw [e2]; exact e1.symm
    rw [this]; ring
  rw [BitVec.toNat_ofNat, Nat.mod_eq_of_lt]
  · rw [e3]
    have : q * m * p + f * p + b - f * p = q * m * p + b := by omega
    rw [this]; ring
  · have e4 : w.toNat - f * p = q * m * p + b := by rw [e3]; omega
    rw [e4]
    have h5 : q * m * p + v % m * p + b < 2 ^ 64 := by
      have : (q + 1) * (m * p) ≤ 2 ^ (63 - hi) * (m * p) := Nat.mul_le_mul_right _ hq
      have h6 : 2 ^ (63 - hi) * (m * p) = 2 ^ 64 := by rw [h3, hm]; ring
      have h7 : (v % m + 1) * p ≤ m * p := Nat.mul_le_mul_right _ hv
      have h8 : (q + 1) * (m * p) = q * m * p + m * p := by ring
      have h9 : (v % m + 1) * p = v % m * p + p := by ring
      omega
    omega

@[simp] theorem fld_setFld_self (w : Word) {hi lo : Nat} (v : Nat) (h : lo ≤ hi) (h64 : hi < 64) :
    fld (setFld w hi lo v) hi lo = v % 2 ^ (hi - lo + 1) := by
  have hb : w.toNat % 2 ^ lo < 2 ^ lo := Nat.mod_lt _ (by positivity)
  have hv : v % 2 ^ (hi - lo + 1) < 2 ^ (hi - lo + 1) := Nat.mod_lt _ (by positivity)
  unfold fld
  rw [setFld_toNat w v h h64, Nat.shiftRight_eq_div_pow]
  rw [Nat.add_comm, Nat.add_mul_div_right _ _ (by positivity), Nat.div_eq_of_lt hb, Nat.zero_add]
  rw [Nat.mul_add_mod', Nat.mod_mod]

/-- A field below the replaced one stands. -/
theorem fld_setFld_below (w : Word) {hi lo hi' lo' : Nat} (v : Nat) (h : lo ≤ hi) (h64 : hi < 64) (h' : lo' ≤ hi') (hd : hi' < lo) :
    fld (setFld w hi lo v) hi' lo' = fld w hi' lo' := by
  unfold fld
  apply Nat.eq_of_testBit_eq
  intro i
  have key : ∀ j, j < lo → (setFld w hi lo v).toNat.testBit j = w.toNat.testBit j := by
    intro j hj
    rw [setFld_toNat w v h h64]
    have e : ((w.toNat / 2 ^ (hi + 1) * 2 ^ (hi - lo + 1) + v % 2 ^ (hi - lo + 1)) * 2 ^ lo + w.toNat % 2 ^ lo) % 2 ^ lo =
        w.toNat % 2 ^ lo := by rw [Nat.mul_add_mod', Nat.mod_mod]
    have t : (_ % 2 ^ lo : Nat).testBit j = (w.toNat % 2 ^ lo).testBit j := congrArg (fun n => n.testBit j) e
    rw [Nat.testBit_mod_two_pow, Nat.testBit_mod_two_pow, decide_eq_true hj, Bool.true_and, Bool.true_and] at t
    exact t
  simp only [Nat.testBit_mod_two_pow, Nat.testBit_shiftRight]
  by_cases hi2 : i < hi' - lo' + 1
  · rw [key (lo' + i) (by omega)]
  · simp [hi2]

/-- A field above the replaced one stands. -/
theorem fld_setFld_above (w : Word) {hi lo hi' lo' : Nat} (v : Nat) (h : lo ≤ hi) (h64 : hi < 64) (hd : hi < lo') :
    fld (setFld w hi lo v) hi' lo' = fld w hi' lo' := by
  have hb : w.toNat % 2 ^ lo < 2 ^ lo := Nat.mod_lt _ (by positivity)
  have hv : v % 2 ^ (hi - lo + 1) < 2 ^ (hi - lo + 1) := Nat.mod_lt _ (by positivity)
  have hm : (2 : Nat) ^ (hi + 1) = 2 ^ lo * 2 ^ (hi - lo + 1) := by rw [← pow_add]; congr 1; omega
  have e : (setFld w hi lo v).toNat / 2 ^ (hi + 1) = w.toNat / 2 ^ (hi + 1) := by
    rw [setFld_toNat w v h h64]
    conv_lhs => rw [hm, ← Nat.div_div_eq_div_mul]
    rw [Nat.add_comm, Nat.add_mul_div_right _ _ (by positivity), Nat.div_eq_of_lt hb, Nat.zero_add,
      Nat.add_comm, Nat.add_mul_div_right _ _ (by positivity), Nat.div_eq_of_lt hv, Nat.zero_add, ← hm]
  have hp : (2 : Nat) ^ lo' = 2 ^ (hi + 1) * 2 ^ (lo' - hi - 1) := by rw [← pow_add]; congr 1; omega
  unfold fld
  simp only [Nat.shiftRight_eq_div_pow]
  rw [hp, ← Nat.div_div_eq_div_mul, ← Nat.div_div_eq_div_mul, e]

/-- A bit is a field of one bit. -/
theorem bitAt_fld (w : Word) (i : Nat) : bitAt w i = (fld w i i == 1) := by
  unfold bitAt fld
  rw [Nat.testBit_eq_decide_div_mod_eq, Nat.shiftRight_eq_div_pow]
  simp [beq_eq_decide]

@[simp] theorem bitAt_setBit_self (w : Word) {i : Nat} (b : Bool) (h : i < 64) : bitAt (setBit w i b) i = b := by
  rw [bitAt_fld, setBit, fld_setFld_self w _ le_rfl h]
  cases b <;> simp

theorem bitAt_setBit_ne (w : Word) {i j : Nat} (b : Bool) (h : i < 64) (hne : j ≠ i) : bitAt (setBit w i b) j = bitAt w j := by
  rw [bitAt_fld, bitAt_fld, setBit]
  rcases Nat.lt_or_gt_of_ne hne with hlt | hgt
  · rw [fld_setFld_below w _ le_rfl h le_rfl hlt]
  · rw [fld_setFld_above w _ le_rfl h hgt]

end Sys2Proof.Machine
end

