-- ==== Sys2Proof/Laws/State.lean ====
section
/-! SUPPORT. What each named update of the state leaves: one equation per update and field. -/

namespace Sys2Proof.Machine

variable (s : State)

/-! ## setReg -/

@[simp] theorem State.setReg_board (p o : Nat) (v : Word) : (s.setReg p o v).board = s.board := rfl
@[simp] theorem State.setReg_boot (p o : Nat) (v : Word) : (s.setReg p o v).boot = s.boot := rfl
@[simp] theorem State.setReg_regs (p o : Nat) (v : Word) : (s.setReg p o v).regs = Tab.set s.regs (resetVal (regKey p o)) (regKey p o) v := rfl
@[simp] theorem State.setReg_mem (p o : Nat) (v : Word) : (s.setReg p o v).mem = s.mem := rfl
@[simp] theorem State.setReg_cores (p o : Nat) (v : Word) : (s.setReg p o v).cores = s.cores := rfl
@[simp] theorem State.setReg_arrs (p o : Nat) (v : Word) : (s.setReg p o v).arrs = s.arrs := rfl
@[simp] theorem State.setReg_sync (p o : Nat) (v : Word) : (s.setReg p o v).sync = s.sync := rfl
@[simp] theorem State.setReg_txn (p o : Nat) (v : Word) : (s.setReg p o v).txn = s.txn := rfl
@[simp] theorem State.setReg_hbm (p o : Nat) (v : Word) : (s.setReg p o v).hbm = s.hbm := rfl
@[simp] theorem State.setReg_xings (p o : Nat) (v : Word) : (s.setReg p o v).xings = s.xings := rfl
@[simp] theorem State.setReg_link (p o : Nat) (v : Word) : (s.setReg p o v).link = s.link := rfl
@[simp] theorem State.setReg_coll (p o : Nat) (v : Word) : (s.setReg p o v).coll = s.coll := rfl
@[simp] theorem State.setReg_step (p o : Nat) (v : Word) : (s.setReg p o v).step = s.step := rfl
@[simp] theorem State.setReg_hcq (p o : Nat) (v : Word) : (s.setReg p o v).hcq = s.hcq := rfl
@[simp] theorem State.setReg_qps (p o : Nat) (v : Word) : (s.setReg p o v).qps = s.qps := rfl
@[simp] theorem State.setReg_pwr (p o : Nat) (v : Word) : (s.setReg p o v).pwr = s.pwr := rfl
@[simp] theorem State.setReg_thm (p o : Nat) (v : Word) : (s.setReg p o v).thm = s.thm := rfl
@[simp] theorem State.setReg_shut (p o : Nat) (v : Word) : (s.setReg p o v).shut = s.shut := rfl
@[simp] theorem State.setReg_sec (p o : Nat) (v : Word) : (s.setReg p o v).sec = s.sec := rfl
@[simp] theorem State.setReg_inj (p o : Nat) (v : Word) : (s.setReg p o v).inj = s.inj := rfl
@[simp] theorem State.setReg_free (p o : Nat) (v : Word) : (s.setReg p o v).free = s.free := rfl
@[simp] theorem State.setReg_out (p o : Nat) (v : Word) : (s.setReg p o v).out = s.out := rfl
@[simp] theorem State.setReg_pending (p o : Nat) (v : Word) : (s.setReg p o v).pending = s.pending := rfl

/-! ## setRf -/

@[simp] theorem State.setRf_board (p o hi lo v : Nat) : (s.setRf p o hi lo v).board = s.board := rfl
@[simp] theorem State.setRf_boot (p o hi lo v : Nat) : (s.setRf p o hi lo v).boot = s.boot := rfl
@[simp] theorem State.setRf_mem (p o hi lo v : Nat) : (s.setRf p o hi lo v).mem = s.mem := rfl
@[simp] theorem State.setRf_cores (p o hi lo v : Nat) : (s.setRf p o hi lo v).cores = s.cores := rfl
@[simp] theorem State.setRf_arrs (p o hi lo v : Nat) : (s.setRf p o hi lo v).arrs = s.arrs := rfl
@[simp] theorem State.setRf_sync (p o hi lo v : Nat) : (s.setRf p o hi lo v).sync = s.sync := rfl
@[simp] theorem State.setRf_txn (p o hi lo v : Nat) : (s.setRf p o hi lo v).txn = s.txn := rfl
@[simp] theorem State.setRf_hbm (p o hi lo v : Nat) : (s.setRf p o hi lo v).hbm = s.hbm := rfl
@[simp] theorem State.setRf_xings (p o hi lo v : Nat) : (s.setRf p o hi lo v).xings = s.xings := rfl
@[simp] theorem State.setRf_link (p o hi lo v : Nat) : (s.setRf p o hi lo v).link = s.link := rfl
@[simp] theorem State.setRf_coll (p o hi lo v : Nat) : (s.setRf p o hi lo v).coll = s.coll := rfl
@[simp] theorem State.setRf_step (p o hi lo v : Nat) : (s.setRf p o hi lo v).step = s.step := rfl
@[simp] theorem State.setRf_hcq (p o hi lo v : Nat) : (s.setRf p o hi lo v).hcq = s.hcq := rfl
@[simp] theorem State.setRf_qps (p o hi lo v : Nat) : (s.setRf p o hi lo v).qps = s.qps := rfl
@[simp] theorem State.setRf_pwr (p o hi lo v : Nat) : (s.setRf p o hi lo v).pwr = s.pwr := rfl
@[simp] theorem State.setRf_thm (p o hi lo v : Nat) : (s.setRf p o hi lo v).thm = s.thm := rfl
@[simp] theorem State.setRf_shut (p o hi lo v : Nat) : (s.setRf p o hi lo v).shut = s.shut := rfl
@[simp] theorem State.setRf_sec (p o hi lo v : Nat) : (s.setRf p o hi lo v).sec = s.sec := rfl
@[simp] theorem State.setRf_inj (p o hi lo v : Nat) : (s.setRf p o hi lo v).inj = s.inj := rfl
@[simp] theorem State.setRf_free (p o hi lo v : Nat) : (s.setRf p o hi lo v).free = s.free := rfl
@[simp] theorem State.setRf_out (p o hi lo v : Nat) : (s.setRf p o hi lo v).out = s.out := rfl
@[simp] theorem State.setRf_pending (p o hi lo v : Nat) : (s.setRf p o hi lo v).pending = s.pending := rfl

/-! ## addReg -/

@[simp] theorem State.addReg_board (p o n : Nat) : (s.addReg p o n).board = s.board := rfl
@[simp] theorem State.addReg_boot (p o n : Nat) : (s.addReg p o n).boot = s.boot := rfl
@[simp] theorem State.addReg_mem (p o n : Nat) : (s.addReg p o n).mem = s.mem := rfl
@[simp] theorem State.addReg_cores (p o n : Nat) : (s.addReg p o n).cores = s.cores := rfl
@[simp] theorem State.addReg_arrs (p o n : Nat) : (s.addReg p o n).arrs = s.arrs := rfl
@[simp] theorem State.addReg_sync (p o n : Nat) : (s.addReg p o n).sync = s.sync := rfl
@[simp] theorem State.addReg_txn (p o n : Nat) : (s.addReg p o n).txn = s.txn := rfl
@[simp] theorem State.addReg_hbm (p o n : Nat) : (s.addReg p o n).hbm = s.hbm := rfl
@[simp] theorem State.addReg_xings (p o n : Nat) : (s.addReg p o n).xings = s.xings := rfl
@[simp] theorem State.addReg_link (p o n : Nat) : (s.addReg p o n).link = s.link := rfl
@[simp] theorem State.addReg_coll (p o n : Nat) : (s.addReg p o n).coll = s.coll := rfl
@[simp] theorem State.addReg_step (p o n : Nat) : (s.addReg p o n).step = s.step := rfl
@[simp] theorem State.addReg_hcq (p o n : Nat) : (s.addReg p o n).hcq = s.hcq := rfl
@[simp] theorem State.addReg_qps (p o n : Nat) : (s.addReg p o n).qps = s.qps := rfl
@[simp] theorem State.addReg_pwr (p o n : Nat) : (s.addReg p o n).pwr = s.pwr := rfl
@[simp] theorem State.addReg_thm (p o n : Nat) : (s.addReg p o n).thm = s.thm := rfl
@[simp] theorem State.addReg_shut (p o n : Nat) : (s.addReg p o n).shut = s.shut := rfl
@[simp] theorem State.addReg_sec (p o n : Nat) : (s.addReg p o n).sec = s.sec := rfl
@[simp] theorem State.addReg_inj (p o n : Nat) : (s.addReg p o n).inj = s.inj := rfl
@[simp] theorem State.addReg_free (p o n : Nat) : (s.addReg p o n).free = s.free := rfl
@[simp] theorem State.addReg_out (p o n : Nat) : (s.addReg p o n).out = s.out := rfl
@[simp] theorem State.addReg_pending (p o n : Nat) : (s.addReg p o n).pending = s.pending := rfl

/-! ## setCore -/

@[simp] theorem State.setCore_board (n : Nat) (c : Core) : (s.setCore n c).board = s.board := rfl
@[simp] theorem State.setCore_boot (n : Nat) (c : Core) : (s.setCore n c).boot = s.boot := rfl
@[simp] theorem State.setCore_regs (n : Nat) (c : Core) : (s.setCore n c).regs = s.regs := rfl
@[simp] theorem State.setCore_mem (n : Nat) (c : Core) : (s.setCore n c).mem = s.mem := rfl
@[simp] theorem State.setCore_cores (n : Nat) (c : Core) : (s.setCore n c).cores = Tab.set s.cores {} n c := rfl
@[simp] theorem State.setCore_arrs (n : Nat) (c : Core) : (s.setCore n c).arrs = s.arrs := rfl
@[simp] theorem State.setCore_sync (n : Nat) (c : Core) : (s.setCore n c).sync = s.sync := rfl
@[simp] theorem State.setCore_txn (n : Nat) (c : Core) : (s.setCore n c).txn = s.txn := rfl
@[simp] theorem State.setCore_hbm (n : Nat) (c : Core) : (s.setCore n c).hbm = s.hbm := rfl
@[simp] theorem State.setCore_xings (n : Nat) (c : Core) : (s.setCore n c).xings = s.xings := rfl
@[simp] theorem State.setCore_link (n : Nat) (c : Core) : (s.setCore n c).link = s.link := rfl
@[simp] theorem State.setCore_coll (n : Nat) (c : Core) : (s.setCore n c).coll = s.coll := rfl
@[simp] theorem State.setCore_step (n : Nat) (c : Core) : (s.setCore n c).step = s.step := rfl
@[simp] theorem State.setCore_hcq (n : Nat) (c : Core) : (s.setCore n c).hcq = s.hcq := rfl
@[simp] theorem State.setCore_qps (n : Nat) (c : Core) : (s.setCore n c).qps = s.qps := rfl
@[simp] theorem State.setCore_pwr (n : Nat) (c : Core) : (s.setCore n c).pwr = s.pwr := rfl
@[simp] theorem State.setCore_thm (n : Nat) (c : Core) : (s.setCore n c).thm = s.thm := rfl
@[simp] theorem State.setCore_shut (n : Nat) (c : Core) : (s.setCore n c).shut = s.shut := rfl
@[simp] theorem State.setCore_sec (n : Nat) (c : Core) : (s.setCore n c).sec = s.sec := rfl
@[simp] theorem State.setCore_inj (n : Nat) (c : Core) : (s.setCore n c).inj = s.inj := rfl
@[simp] theorem State.setCore_free (n : Nat) (c : Core) : (s.setCore n c).free = s.free := rfl
@[simp] theorem State.setCore_out (n : Nat) (c : Core) : (s.setCore n c).out = s.out := rfl
@[simp] theorem State.setCore_pending (n : Nat) (c : Core) : (s.setCore n c).pending = s.pending := rfl
@[simp] theorem State.setCore_reg (n : Nat) (c : Core) (page off : Nat) : (s.setCore n c).reg page off = s.reg page off := rfl

/-! ## setCtx -/

@[simp] theorem State.setCtx_board (n x : Nat) (c : Ctx) : (s.setCtx n x c).board = s.board := rfl
@[simp] theorem State.setCtx_boot (n x : Nat) (c : Ctx) : (s.setCtx n x c).boot = s.boot := rfl
@[simp] theorem State.setCtx_regs (n x : Nat) (c : Ctx) : (s.setCtx n x c).regs = s.regs := rfl
@[simp] theorem State.setCtx_mem (n x : Nat) (c : Ctx) : (s.setCtx n x c).mem = s.mem := rfl
@[simp] theorem State.setCtx_arrs (n x : Nat) (c : Ctx) : (s.setCtx n x c).arrs = s.arrs := rfl
@[simp] theorem State.setCtx_sync (n x : Nat) (c : Ctx) : (s.setCtx n x c).sync = s.sync := rfl
@[simp] theorem State.setCtx_txn (n x : Nat) (c : Ctx) : (s.setCtx n x c).txn = s.txn := rfl
@[simp] theorem State.setCtx_hbm (n x : Nat) (c : Ctx) : (s.setCtx n x c).hbm = s.hbm := rfl
@[simp] theorem State.setCtx_xings (n x : Nat) (c : Ctx) : (s.setCtx n x c).xings = s.xings := rfl
@[simp] theorem State.setCtx_link (n x : Nat) (c : Ctx) : (s.setCtx n x c).link = s.link := rfl
@[simp] theorem State.setCtx_coll (n x : Nat) (c : Ctx) : (s.setCtx n x c).coll = s.coll := rfl
@[simp] theorem State.setCtx_step (n x : Nat) (c : Ctx) : (s.setCtx n x c).step = s.step := rfl
@[simp] theorem State.setCtx_hcq (n x : Nat) (c : Ctx) : (s.setCtx n x c).hcq = s.hcq := rfl
@[simp] theorem State.setCtx_qps (n x : Nat) (c : Ctx) : (s.setCtx n x c).qps = s.qps := rfl
@[simp] theorem State.setCtx_pwr (n x : Nat) (c : Ctx) : (s.setCtx n x c).pwr = s.pwr := rfl
@[simp] theorem State.setCtx_thm (n x : Nat) (c : Ctx) : (s.setCtx n x c).thm = s.thm := rfl
@[simp] theorem State.setCtx_shut (n x : Nat) (c : Ctx) : (s.setCtx n x c).shut = s.shut := rfl
@[simp] theorem State.setCtx_sec (n x : Nat) (c : Ctx) : (s.setCtx n x c).sec = s.sec := rfl
@[simp] theorem State.setCtx_inj (n x : Nat) (c : Ctx) : (s.setCtx n x c).inj = s.inj := rfl
@[simp] theorem State.setCtx_free (n x : Nat) (c : Ctx) : (s.setCtx n x c).free = s.free := rfl
@[simp] theorem State.setCtx_out (n x : Nat) (c : Ctx) : (s.setCtx n x c).out = s.out := rfl
@[simp] theorem State.setCtx_pending (n x : Nat) (c : Ctx) : (s.setCtx n x c).pending = s.pending := rfl
@[simp] theorem State.setCtx_reg (n x : Nat) (c : Ctx) (page off : Nat) : (s.setCtx n x c).reg page off = s.reg page off := rfl

/-! ## setArr -/

@[simp] theorem State.setArr_board (n a : Nat) (v : Arr) : (s.setArr n a v).board = s.board := rfl
@[simp] theorem State.setArr_boot (n a : Nat) (v : Arr) : (s.setArr n a v).boot = s.boot := rfl
@[simp] theorem State.setArr_regs (n a : Nat) (v : Arr) : (s.setArr n a v).regs = s.regs := rfl
@[simp] theorem State.setArr_mem (n a : Nat) (v : Arr) : (s.setArr n a v).mem = s.mem := rfl
@[simp] theorem State.setArr_cores (n a : Nat) (v : Arr) : (s.setArr n a v).cores = s.cores := rfl
@[simp] theorem State.setArr_arrs (n a : Nat) (v : Arr) : (s.setArr n a v).arrs = Tab.set s.arrs {} (4 * n + a) v := rfl
@[simp] theorem State.setArr_sync (n a : Nat) (v : Arr) : (s.setArr n a v).sync = s.sync := rfl
@[simp] theorem State.setArr_txn (n a : Nat) (v : Arr) : (s.setArr n a v).txn = s.txn := rfl
@[simp] theorem State.setArr_hbm (n a : Nat) (v : Arr) : (s.setArr n a v).hbm = s.hbm := rfl
@[simp] theorem State.setArr_xings (n a : Nat) (v : Arr) : (s.setArr n a v).xings = s.xings := rfl
@[simp] theorem State.setArr_link (n a : Nat) (v : Arr) : (s.setArr n a v).link = s.link := rfl
@[simp] theorem State.setArr_coll (n a : Nat) (v : Arr) : (s.setArr n a v).coll = s.coll := rfl
@[simp] theorem State.setArr_step (n a : Nat) (v : Arr) : (s.setArr n a v).step = s.step := rfl
@[simp] theorem State.setArr_hcq (n a : Nat) (v : Arr) : (s.setArr n a v).hcq = s.hcq := rfl
@[simp] theorem State.setArr_qps (n a : Nat) (v : Arr) : (s.setArr n a v).qps = s.qps := rfl
@[simp] theorem State.setArr_pwr (n a : Nat) (v : Arr) : (s.setArr n a v).pwr = s.pwr := rfl
@[simp] theorem State.setArr_thm (n a : Nat) (v : Arr) : (s.setArr n a v).thm = s.thm := rfl
@[simp] theorem State.setArr_shut (n a : Nat) (v : Arr) : (s.setArr n a v).shut = s.shut := rfl
@[simp] theorem State.setArr_sec (n a : Nat) (v : Arr) : (s.setArr n a v).sec = s.sec := rfl
@[simp] theorem State.setArr_inj (n a : Nat) (v : Arr) : (s.setArr n a v).inj = s.inj := rfl
@[simp] theorem State.setArr_free (n a : Nat) (v : Arr) : (s.setArr n a v).free = s.free := rfl
@[simp] theorem State.setArr_out (n a : Nat) (v : Arr) : (s.setArr n a v).out = s.out := rfl
@[simp] theorem State.setArr_pending (n a : Nat) (v : Arr) : (s.setArr n a v).pending = s.pending := rfl
@[simp] theorem State.setArr_reg (n a : Nat) (v : Arr) (page off : Nat) : (s.setArr n a v).reg page off = s.reg page off := rfl

/-! ## setStack -/

@[simp] theorem State.setStack_board (i : Nat) (v : Stack) : (s.setStack i v).board = s.board := rfl
@[simp] theorem State.setStack_boot (i : Nat) (v : Stack) : (s.setStack i v).boot = s.boot := rfl
@[simp] theorem State.setStack_regs (i : Nat) (v : Stack) : (s.setStack i v).regs = s.regs := rfl
@[simp] theorem State.setStack_mem (i : Nat) (v : Stack) : (s.setStack i v).mem = s.mem := rfl
@[simp] theorem State.setStack_cores (i : Nat) (v : Stack) : (s.setStack i v).cores = s.cores := rfl
@[simp] theorem State.setStack_arrs (i : Nat) (v : Stack) : (s.setStack i v).arrs = s.arrs := rfl
@[simp] theorem State.setStack_sync (i : Nat) (v : Stack) : (s.setStack i v).sync = s.sync := rfl
@[simp] theorem State.setStack_txn (i : Nat) (v : Stack) : (s.setStack i v).txn = s.txn := rfl
@[simp] theorem State.setStack_hbm (i : Nat) (v : Stack) : (s.setStack i v).hbm = { s.hbm with stk := Tab.set s.hbm.stk {} i v } := rfl
@[simp] theorem State.setStack_xings (i : Nat) (v : Stack) : (s.setStack i v).xings = s.xings := rfl
@[simp] theorem State.setStack_link (i : Nat) (v : Stack) : (s.setStack i v).link = s.link := rfl
@[simp] theorem State.setStack_coll (i : Nat) (v : Stack) : (s.setStack i v).coll = s.coll := rfl
@[simp] theorem State.setStack_step (i : Nat) (v : Stack) : (s.setStack i v).step = s.step := rfl
@[simp] theorem State.setStack_hcq (i : Nat) (v : Stack) : (s.setStack i v).hcq = s.hcq := rfl
@[simp] theorem State.setStack_qps (i : Nat) (v : Stack) : (s.setStack i v).qps = s.qps := rfl
@[simp] theorem State.setStack_pwr (i : Nat) (v : Stack) : (s.setStack i v).pwr = s.pwr := rfl
@[simp] theorem State.setStack_thm (i : Nat) (v : Stack) : (s.setStack i v).thm = s.thm := rfl
@[simp] theorem State.setStack_shut (i : Nat) (v : Stack) : (s.setStack i v).shut = s.shut := rfl
@[simp] theorem State.setStack_sec (i : Nat) (v : Stack) : (s.setStack i v).sec = s.sec := rfl
@[simp] theorem State.setStack_inj (i : Nat) (v : Stack) : (s.setStack i v).inj = s.inj := rfl
@[simp] theorem State.setStack_free (i : Nat) (v : Stack) : (s.setStack i v).free = s.free := rfl
@[simp] theorem State.setStack_out (i : Nat) (v : Stack) : (s.setStack i v).out = s.out := rfl
@[simp] theorem State.setStack_pending (i : Nat) (v : Stack) : (s.setStack i v).pending = s.pending := rfl
@[simp] theorem State.setStack_reg (i : Nat) (v : Stack) (page off : Nat) : (s.setStack i v).reg page off = s.reg page off := rfl

/-! ## setAdder -/

@[simp] theorem State.setAdder_board (i : Nat) (v : Adder) : (s.setAdder i v).board = s.board := rfl
@[simp] theorem State.setAdder_boot (i : Nat) (v : Adder) : (s.setAdder i v).boot = s.boot := rfl
@[simp] theorem State.setAdder_regs (i : Nat) (v : Adder) : (s.setAdder i v).regs = s.regs := rfl
@[simp] theorem State.setAdder_mem (i : Nat) (v : Adder) : (s.setAdder i v).mem = s.mem := rfl
@[simp] theorem State.setAdder_cores (i : Nat) (v : Adder) : (s.setAdder i v).cores = s.cores := rfl
@[simp] theorem State.setAdder_arrs (i : Nat) (v : Adder) : (s.setAdder i v).arrs = s.arrs := rfl
@[simp] theorem State.setAdder_sync (i : Nat) (v : Adder) : (s.setAdder i v).sync = s.sync := rfl
@[simp] theorem State.setAdder_txn (i : Nat) (v : Adder) : (s.setAdder i v).txn = s.txn := rfl
@[simp] theorem State.setAdder_hbm (i : Nat) (v : Adder) : (s.setAdder i v).hbm = { s.hbm with adders := Tab.set s.hbm.adders {} i v } := rfl
@[simp] theorem State.setAdder_xings (i : Nat) (v : Adder) : (s.setAdder i v).xings = s.xings := rfl
@[simp] theorem State.setAdder_link (i : Nat) (v : Adder) : (s.setAdder i v).link = s.link := rfl
@[simp] theorem State.setAdder_coll (i : Nat) (v : Adder) : (s.setAdder i v).coll = s.coll := rfl
@[simp] theorem State.setAdder_step (i : Nat) (v : Adder) : (s.setAdder i v).step = s.step := rfl
@[simp] theorem State.setAdder_hcq (i : Nat) (v : Adder) : (s.setAdder i v).hcq = s.hcq := rfl
@[simp] theorem State.setAdder_qps (i : Nat) (v : Adder) : (s.setAdder i v).qps = s.qps := rfl
@[simp] theorem State.setAdder_pwr (i : Nat) (v : Adder) : (s.setAdder i v).pwr = s.pwr := rfl
@[simp] theorem State.setAdder_thm (i : Nat) (v : Adder) : (s.setAdder i v).thm = s.thm := rfl
@[simp] theorem State.setAdder_shut (i : Nat) (v : Adder) : (s.setAdder i v).shut = s.shut := rfl
@[simp] theorem State.setAdder_sec (i : Nat) (v : Adder) : (s.setAdder i v).sec = s.sec := rfl
@[simp] theorem State.setAdder_inj (i : Nat) (v : Adder) : (s.setAdder i v).inj = s.inj := rfl
@[simp] theorem State.setAdder_free (i : Nat) (v : Adder) : (s.setAdder i v).free = s.free := rfl
@[simp] theorem State.setAdder_out (i : Nat) (v : Adder) : (s.setAdder i v).out = s.out := rfl
@[simp] theorem State.setAdder_pending (i : Nat) (v : Adder) : (s.setAdder i v).pending = s.pending := rfl
@[simp] theorem State.setAdder_reg (i : Nat) (v : Adder) (page off : Nat) : (s.setAdder i v).reg page off = s.reg page off := rfl

/-! ## setPort -/

@[simp] theorem State.setPort_board (p : Nat) (v : Port) : (s.setPort p v).board = s.board := rfl
@[simp] theorem State.setPort_boot (p : Nat) (v : Port) : (s.setPort p v).boot = s.boot := rfl
@[simp] theorem State.setPort_regs (p : Nat) (v : Port) : (s.setPort p v).regs = s.regs := rfl
@[simp] theorem State.setPort_mem (p : Nat) (v : Port) : (s.setPort p v).mem = s.mem := rfl
@[simp] theorem State.setPort_cores (p : Nat) (v : Port) : (s.setPort p v).cores = s.cores := rfl
@[simp] theorem State.setPort_arrs (p : Nat) (v : Port) : (s.setPort p v).arrs = s.arrs := rfl
@[simp] theorem State.setPort_sync (p : Nat) (v : Port) : (s.setPort p v).sync = s.sync := rfl
@[simp] theorem State.setPort_txn (p : Nat) (v : Port) : (s.setPort p v).txn = s.txn := rfl
@[simp] theorem State.setPort_hbm (p : Nat) (v : Port) : (s.setPort p v).hbm = s.hbm := rfl
@[simp] theorem State.setPort_xings (p : Nat) (v : Port) : (s.setPort p v).xings = s.xings := rfl
@[simp] theorem State.setPort_link (p : Nat) (v : Port) : (s.setPort p v).link = { s.link with ports := Tab.set s.link.ports {} p v } := rfl
@[simp] theorem State.setPort_coll (p : Nat) (v : Port) : (s.setPort p v).coll = s.coll := rfl
@[simp] theorem State.setPort_step (p : Nat) (v : Port) : (s.setPort p v).step = s.step := rfl
@[simp] theorem State.setPort_hcq (p : Nat) (v : Port) : (s.setPort p v).hcq = s.hcq := rfl
@[simp] theorem State.setPort_qps (p : Nat) (v : Port) : (s.setPort p v).qps = s.qps := rfl
@[simp] theorem State.setPort_pwr (p : Nat) (v : Port) : (s.setPort p v).pwr = s.pwr := rfl
@[simp] theorem State.setPort_thm (p : Nat) (v : Port) : (s.setPort p v).thm = s.thm := rfl
@[simp] theorem State.setPort_shut (p : Nat) (v : Port) : (s.setPort p v).shut = s.shut := rfl
@[simp] theorem State.setPort_sec (p : Nat) (v : Port) : (s.setPort p v).sec = s.sec := rfl
@[simp] theorem State.setPort_inj (p : Nat) (v : Port) : (s.setPort p v).inj = s.inj := rfl
@[simp] theorem State.setPort_free (p : Nat) (v : Port) : (s.setPort p v).free = s.free := rfl
@[simp] theorem State.setPort_out (p : Nat) (v : Port) : (s.setPort p v).out = s.out := rfl
@[simp] theorem State.setPort_pending (p : Nat) (v : Port) : (s.setPort p v).pending = s.pending := rfl
@[simp] theorem State.setPort_reg (p : Nat) (v : Port) (page off : Nat) : (s.setPort p v).reg page off = s.reg page off := rfl

/-! ## setIsland -/

@[simp] theorem State.setIsland_board (i : Nat) (v : Island) : (s.setIsland i v).board = s.board := rfl
@[simp] theorem State.setIsland_boot (i : Nat) (v : Island) : (s.setIsland i v).boot = s.boot := rfl
@[simp] theorem State.setIsland_regs (i : Nat) (v : Island) : (s.setIsland i v).regs = s.regs := rfl
@[simp] theorem State.setIsland_mem (i : Nat) (v : Island) : (s.setIsland i v).mem = s.mem := rfl
@[simp] theorem State.setIsland_cores (i : Nat) (v : Island) : (s.setIsland i v).cores = s.cores := rfl
@[simp] theorem State.setIsland_arrs (i : Nat) (v : Island) : (s.setIsland i v).arrs = s.arrs := rfl
@[simp] theorem State.setIsland_sync (i : Nat) (v : Island) : (s.setIsland i v).sync = s.sync := rfl
@[simp] theorem State.setIsland_txn (i : Nat) (v : Island) : (s.setIsland i v).txn = s.txn := rfl
@[simp] theorem State.setIsland_hbm (i : Nat) (v : Island) : (s.setIsland i v).hbm = s.hbm := rfl
@[simp] theorem State.setIsland_xings (i : Nat) (v : Island) : (s.setIsland i v).xings = s.xings := rfl
@[simp] theorem State.setIsland_link (i : Nat) (v : Island) : (s.setIsland i v).link = s.link := rfl
@[simp] theorem State.setIsland_coll (i : Nat) (v : Island) : (s.setIsland i v).coll = s.coll := rfl
@[simp] theorem State.setIsland_step (i : Nat) (v : Island) : (s.setIsland i v).step = s.step := rfl
@[simp] theorem State.setIsland_hcq (i : Nat) (v : Island) : (s.setIsland i v).hcq = s.hcq := rfl
@[simp] theorem State.setIsland_qps (i : Nat) (v : Island) : (s.setIsland i v).qps = s.qps := rfl
@[simp] theorem State.setIsland_pwr (i : Nat) (v : Island) : (s.setIsland i v).pwr = { s.pwr with islands := Tab.set s.pwr.islands {} i v } := rfl
@[simp] theorem State.setIsland_thm (i : Nat) (v : Island) : (s.setIsland i v).thm = s.thm := rfl
@[simp] theorem State.setIsland_shut (i : Nat) (v : Island) : (s.setIsland i v).shut = s.shut := rfl
@[simp] theorem State.setIsland_sec (i : Nat) (v : Island) : (s.setIsland i v).sec = s.sec := rfl
@[simp] theorem State.setIsland_inj (i : Nat) (v : Island) : (s.setIsland i v).inj = s.inj := rfl
@[simp] theorem State.setIsland_free (i : Nat) (v : Island) : (s.setIsland i v).free = s.free := rfl
@[simp] theorem State.setIsland_out (i : Nat) (v : Island) : (s.setIsland i v).out = s.out := rfl
@[simp] theorem State.setIsland_pending (i : Nat) (v : Island) : (s.setIsland i v).pending = s.pending := rfl
@[simp] theorem State.setIsland_reg (i : Nat) (v : Island) (page off : Nat) : (s.setIsland i v).reg page off = s.reg page off := rfl

/-! ## setQueue -/

@[simp] theorem State.setQueue_board (q : Nat) (v : Queue) : (s.setQueue q v).board = s.board := rfl
@[simp] theorem State.setQueue_boot (q : Nat) (v : Queue) : (s.setQueue q v).boot = s.boot := rfl
@[simp] theorem State.setQueue_regs (q : Nat) (v : Queue) : (s.setQueue q v).regs = s.regs := rfl
@[simp] theorem State.setQueue_mem (q : Nat) (v : Queue) : (s.setQueue q v).mem = s.mem := rfl
@[simp] theorem State.setQueue_cores (q : Nat) (v : Queue) : (s.setQueue q v).cores = s.cores := rfl
@[simp] theorem State.setQueue_arrs (q : Nat) (v : Queue) : (s.setQueue q v).arrs = s.arrs := rfl
@[simp] theorem State.setQueue_sync (q : Nat) (v : Queue) : (s.setQueue q v).sync = s.sync := rfl
@[simp] theorem State.setQueue_txn (q : Nat) (v : Queue) : (s.setQueue q v).txn = s.txn := rfl
@[simp] theorem State.setQueue_hbm (q : Nat) (v : Queue) : (s.setQueue q v).hbm = s.hbm := rfl
@[simp] theorem State.setQueue_xings (q : Nat) (v : Queue) : (s.setQueue q v).xings = s.xings := rfl
@[simp] theorem State.setQueue_link (q : Nat) (v : Queue) : (s.setQueue q v).link = s.link := rfl
@[simp] theorem State.setQueue_coll (q : Nat) (v : Queue) : (s.setQueue q v).coll = s.coll := rfl
@[simp] theorem State.setQueue_step (q : Nat) (v : Queue) : (s.setQueue q v).step = s.step := rfl
@[simp] theorem State.setQueue_hcq (q : Nat) (v : Queue) : (s.setQueue q v).hcq = { s.hcq with queues := Tab.set s.hcq.queues {} q v } := rfl
@[simp] theorem State.setQueue_qps (q : Nat) (v : Queue) : (s.setQueue q v).qps = s.qps := rfl
@[simp] theorem State.setQueue_pwr (q : Nat) (v : Queue) : (s.setQueue q v).pwr = s.pwr := rfl
@[simp] theorem State.setQueue_thm (q : Nat) (v : Queue) : (s.setQueue q v).thm = s.thm := rfl
@[simp] theorem State.setQueue_shut (q : Nat) (v : Queue) : (s.setQueue q v).shut = s.shut := rfl
@[simp] theorem State.setQueue_sec (q : Nat) (v : Queue) : (s.setQueue q v).sec = s.sec := rfl
@[simp] theorem State.setQueue_inj (q : Nat) (v : Queue) : (s.setQueue q v).inj = s.inj := rfl
@[simp] theorem State.setQueue_free (q : Nat) (v : Queue) : (s.setQueue q v).free = s.free := rfl
@[simp] theorem State.setQueue_out (q : Nat) (v : Queue) : (s.setQueue q v).out = s.out := rfl
@[simp] theorem State.setQueue_pending (q : Nat) (v : Queue) : (s.setQueue q v).pending = s.pending := rfl
@[simp] theorem State.setQueue_reg (q : Nat) (v : Queue) (page off : Nat) : (s.setQueue q v).reg page off = s.reg page off := rfl

/-! ## setXing -/

@[simp] theorem State.setXing_board (i : Nat) (v : Xing) : (s.setXing i v).board = s.board := rfl
@[simp] theorem State.setXing_boot (i : Nat) (v : Xing) : (s.setXing i v).boot = s.boot := rfl
@[simp] theorem State.setXing_regs (i : Nat) (v : Xing) : (s.setXing i v).regs = s.regs := rfl
@[simp] theorem State.setXing_mem (i : Nat) (v : Xing) : (s.setXing i v).mem = s.mem := rfl
@[simp] theorem State.setXing_cores (i : Nat) (v : Xing) : (s.setXing i v).cores = s.cores := rfl
@[simp] theorem State.setXing_arrs (i : Nat) (v : Xing) : (s.setXing i v).arrs = s.arrs := rfl
@[simp] theorem State.setXing_sync (i : Nat) (v : Xing) : (s.setXing i v).sync = s.sync := rfl
@[simp] theorem State.setXing_txn (i : Nat) (v : Xing) : (s.setXing i v).txn = s.txn := rfl
@[simp] theorem State.setXing_hbm (i : Nat) (v : Xing) : (s.setXing i v).hbm = s.hbm := rfl
@[simp] theorem State.setXing_xings (i : Nat) (v : Xing) : (s.setXing i v).xings = Tab.set s.xings {} i v := rfl
@[simp] theorem State.setXing_link (i : Nat) (v : Xing) : (s.setXing i v).link = s.link := rfl
@[simp] theorem State.setXing_coll (i : Nat) (v : Xing) : (s.setXing i v).coll = s.coll := rfl
@[simp] theorem State.setXing_step (i : Nat) (v : Xing) : (s.setXing i v).step = s.step := rfl
@[simp] theorem State.setXing_hcq (i : Nat) (v : Xing) : (s.setXing i v).hcq = s.hcq := rfl
@[simp] theorem State.setXing_qps (i : Nat) (v : Xing) : (s.setXing i v).qps = s.qps := rfl
@[simp] theorem State.setXing_pwr (i : Nat) (v : Xing) : (s.setXing i v).pwr = s.pwr := rfl
@[simp] theorem State.setXing_thm (i : Nat) (v : Xing) : (s.setXing i v).thm = s.thm := rfl
@[simp] theorem State.setXing_shut (i : Nat) (v : Xing) : (s.setXing i v).shut = s.shut := rfl
@[simp] theorem State.setXing_sec (i : Nat) (v : Xing) : (s.setXing i v).sec = s.sec := rfl
@[simp] theorem State.setXing_inj (i : Nat) (v : Xing) : (s.setXing i v).inj = s.inj := rfl
@[simp] theorem State.setXing_free (i : Nat) (v : Xing) : (s.setXing i v).free = s.free := rfl
@[simp] theorem State.setXing_out (i : Nat) (v : Xing) : (s.setXing i v).out = s.out := rfl
@[simp] theorem State.setXing_pending (i : Nat) (v : Xing) : (s.setXing i v).pending = s.pending := rfl
@[simp] theorem State.setXing_reg (i : Nat) (v : Xing) (page off : Nat) : (s.setXing i v).reg page off = s.reg page off := rfl

/-! ## setObj -/

@[simp] theorem State.setObj_board (u k i : Nat) (o : Obj) : (s.setObj u k i o).board = s.board := rfl
@[simp] theorem State.setObj_boot (u k i : Nat) (o : Obj) : (s.setObj u k i o).boot = s.boot := rfl
@[simp] theorem State.setObj_regs (u k i : Nat) (o : Obj) : (s.setObj u k i o).regs = s.regs := rfl
@[simp] theorem State.setObj_mem (u k i : Nat) (o : Obj) : (s.setObj u k i o).mem = s.mem := rfl
@[simp] theorem State.setObj_cores (u k i : Nat) (o : Obj) : (s.setObj u k i o).cores = s.cores := rfl
@[simp] theorem State.setObj_arrs (u k i : Nat) (o : Obj) : (s.setObj u k i o).arrs = s.arrs := rfl
@[simp] theorem State.setObj_txn (u k i : Nat) (o : Obj) : (s.setObj u k i o).txn = s.txn := rfl
@[simp] theorem State.setObj_hbm (u k i : Nat) (o : Obj) : (s.setObj u k i o).hbm = s.hbm := rfl
@[simp] theorem State.setObj_xings (u k i : Nat) (o : Obj) : (s.setObj u k i o).xings = s.xings := rfl
@[simp] theorem State.setObj_link (u k i : Nat) (o : Obj) : (s.setObj u k i o).link = s.link := rfl
@[simp] theorem State.setObj_coll (u k i : Nat) (o : Obj) : (s.setObj u k i o).coll = s.coll := rfl
@[simp] theorem State.setObj_step (u k i : Nat) (o : Obj) : (s.setObj u k i o).step = s.step := rfl
@[simp] theorem State.setObj_hcq (u k i : Nat) (o : Obj) : (s.setObj u k i o).hcq = s.hcq := rfl
@[simp] theorem State.setObj_qps (u k i : Nat) (o : Obj) : (s.setObj u k i o).qps = s.qps := rfl
@[simp] theorem State.setObj_pwr (u k i : Nat) (o : Obj) : (s.setObj u k i o).pwr = s.pwr := rfl
@[simp] theorem State.setObj_thm (u k i : Nat) (o : Obj) : (s.setObj u k i o).thm = s.thm := rfl
@[simp] theorem State.setObj_shut (u k i : Nat) (o : Obj) : (s.setObj u k i o).shut = s.shut := rfl
@[simp] theorem State.setObj_sec (u k i : Nat) (o : Obj) : (s.setObj u k i o).sec = s.sec := rfl
@[simp] theorem State.setObj_inj (u k i : Nat) (o : Obj) : (s.setObj u k i o).inj = s.inj := rfl
@[simp] theorem State.setObj_free (u k i : Nat) (o : Obj) : (s.setObj u k i o).free = s.free := rfl
@[simp] theorem State.setObj_out (u k i : Nat) (o : Obj) : (s.setObj u k i o).out = s.out := rfl
@[simp] theorem State.setObj_pending (u k i : Nat) (o : Obj) : (s.setObj u k i o).pending = s.pending := rfl
@[simp] theorem State.setObj_reg (u k i : Nat) (o : Obj) (page off : Nat) : (s.setObj u k i o).reg page off = s.reg page off := rfl

/-! ## mapQp -/

@[simp] theorem State.mapQp_board (p q : Nat) (f : Qp → Qp) : (s.mapQp p q f).board = s.board := rfl
@[simp] theorem State.mapQp_boot (p q : Nat) (f : Qp → Qp) : (s.mapQp p q f).boot = s.boot := rfl
@[simp] theorem State.mapQp_regs (p q : Nat) (f : Qp → Qp) : (s.mapQp p q f).regs = s.regs := rfl
@[simp] theorem State.mapQp_mem (p q : Nat) (f : Qp → Qp) : (s.mapQp p q f).mem = s.mem := rfl
@[simp] theorem State.mapQp_cores (p q : Nat) (f : Qp → Qp) : (s.mapQp p q f).cores = s.cores := rfl
@[simp] theorem State.mapQp_arrs (p q : Nat) (f : Qp → Qp) : (s.mapQp p q f).arrs = s.arrs := rfl
@[simp] theorem State.mapQp_sync (p q : Nat) (f : Qp → Qp) : (s.mapQp p q f).sync = s.sync := rfl
@[simp] theorem State.mapQp_txn (p q : Nat) (f : Qp → Qp) : (s.mapQp p q f).txn = s.txn := rfl
@[simp] theorem State.mapQp_hbm (p q : Nat) (f : Qp → Qp) : (s.mapQp p q f).hbm = s.hbm := rfl
@[simp] theorem State.mapQp_xings (p q : Nat) (f : Qp → Qp) : (s.mapQp p q f).xings = s.xings := rfl
@[simp] theorem State.mapQp_link (p q : Nat) (f : Qp → Qp) : (s.mapQp p q f).link = s.link := rfl
@[simp] theorem State.mapQp_coll (p q : Nat) (f : Qp → Qp) : (s.mapQp p q f).coll = s.coll := rfl
@[simp] theorem State.mapQp_step (p q : Nat) (f : Qp → Qp) : (s.mapQp p q f).step = s.step := rfl
@[simp] theorem State.mapQp_hcq (p q : Nat) (f : Qp → Qp) : (s.mapQp p q f).hcq = s.hcq := rfl
@[simp] theorem State.mapQp_qps (p q : Nat) (f : Qp → Qp) : (s.mapQp p q f).qps = s.qps.map (fun k => if k.port = p ∧ k.qpn = q then f k else k) := rfl
@[simp] theorem State.mapQp_pwr (p q : Nat) (f : Qp → Qp) : (s.mapQp p q f).pwr = s.pwr := rfl
@[simp] theorem State.mapQp_thm (p q : Nat) (f : Qp → Qp) : (s.mapQp p q f).thm = s.thm := rfl
@[simp] theorem State.mapQp_shut (p q : Nat) (f : Qp → Qp) : (s.mapQp p q f).shut = s.shut := rfl
@[simp] theorem State.mapQp_sec (p q : Nat) (f : Qp → Qp) : (s.mapQp p q f).sec = s.sec := rfl
@[simp] theorem State.mapQp_inj (p q : Nat) (f : Qp → Qp) : (s.mapQp p q f).inj = s.inj := rfl
@[simp] theorem State.mapQp_free (p q : Nat) (f : Qp → Qp) : (s.mapQp p q f).free = s.free := rfl
@[simp] theorem State.mapQp_out (p q : Nat) (f : Qp → Qp) : (s.mapQp p q f).out = s.out := rfl
@[simp] theorem State.mapQp_pending (p q : Nat) (f : Qp → Qp) : (s.mapQp p q f).pending = s.pending := rfl
@[simp] theorem State.mapQp_reg (p q : Nat) (f : Qp → Qp) (page off : Nat) : (s.mapQp p q f).reg page off = s.reg page off := rfl

/-! ## emit -/

@[simp] theorem State.emit_board (o : Out) : (s.emit o).board = s.board := rfl
@[simp] theorem State.emit_boot (o : Out) : (s.emit o).boot = s.boot := rfl
@[simp] theorem State.emit_regs (o : Out) : (s.emit o).regs = s.regs := rfl
@[simp] theorem State.emit_mem (o : Out) : (s.emit o).mem = s.mem := rfl
@[simp] theorem State.emit_cores (o : Out) : (s.emit o).cores = s.cores := rfl
@[simp] theorem State.emit_arrs (o : Out) : (s.emit o).arrs = s.arrs := rfl
@[simp] theorem State.emit_sync (o : Out) : (s.emit o).sync = s.sync := rfl
@[simp] theorem State.emit_txn (o : Out) : (s.emit o).txn = s.txn := rfl
@[simp] theorem State.emit_hbm (o : Out) : (s.emit o).hbm = s.hbm := rfl
@[simp] theorem State.emit_xings (o : Out) : (s.emit o).xings = s.xings := rfl
@[simp] theorem State.emit_link (o : Out) : (s.emit o).link = s.link := rfl
@[simp] theorem State.emit_coll (o : Out) : (s.emit o).coll = s.coll := rfl
@[simp] theorem State.emit_step (o : Out) : (s.emit o).step = s.step := rfl
@[simp] theorem State.emit_hcq (o : Out) : (s.emit o).hcq = s.hcq := rfl
@[simp] theorem State.emit_qps (o : Out) : (s.emit o).qps = s.qps := rfl
@[simp] theorem State.emit_pwr (o : Out) : (s.emit o).pwr = s.pwr := rfl
@[simp] theorem State.emit_thm (o : Out) : (s.emit o).thm = s.thm := rfl
@[simp] theorem State.emit_shut (o : Out) : (s.emit o).shut = s.shut := rfl
@[simp] theorem State.emit_sec (o : Out) : (s.emit o).sec = s.sec := rfl
@[simp] theorem State.emit_inj (o : Out) : (s.emit o).inj = s.inj := rfl
@[simp] theorem State.emit_free (o : Out) : (s.emit o).free = s.free := rfl
@[simp] theorem State.emit_out (o : Out) : (s.emit o).out = s.out ++ [o] := rfl
@[simp] theorem State.emit_pending (o : Out) : (s.emit o).pending = s.pending := rfl
@[simp] theorem State.emit_reg (o : Out) (page off : Nat) : (s.emit o).reg page off = s.reg page off := rfl

/-! ## draw -/

@[simp] theorem State.draw_board : s.draw.2.board = s.board := rfl
@[simp] theorem State.draw_boot : s.draw.2.boot = s.boot := rfl
@[simp] theorem State.draw_regs : s.draw.2.regs = s.regs := rfl
@[simp] theorem State.draw_mem : s.draw.2.mem = s.mem := rfl
@[simp] theorem State.draw_cores : s.draw.2.cores = s.cores := rfl
@[simp] theorem State.draw_arrs : s.draw.2.arrs = s.arrs := rfl
@[simp] theorem State.draw_sync : s.draw.2.sync = s.sync := rfl
@[simp] theorem State.draw_txn : s.draw.2.txn = s.txn := rfl
@[simp] theorem State.draw_hbm : s.draw.2.hbm = s.hbm := rfl
@[simp] theorem State.draw_xings : s.draw.2.xings = s.xings := rfl
@[simp] theorem State.draw_link : s.draw.2.link = s.link := rfl
@[simp] theorem State.draw_coll : s.draw.2.coll = s.coll := rfl
@[simp] theorem State.draw_step : s.draw.2.step = s.step := rfl
@[simp] theorem State.draw_hcq : s.draw.2.hcq = s.hcq := rfl
@[simp] theorem State.draw_qps : s.draw.2.qps = s.qps := rfl
@[simp] theorem State.draw_pwr : s.draw.2.pwr = s.pwr := rfl
@[simp] theorem State.draw_thm : s.draw.2.thm = s.thm := rfl
@[simp] theorem State.draw_shut : s.draw.2.shut = s.shut := rfl
@[simp] theorem State.draw_sec : s.draw.2.sec = s.sec := rfl
@[simp] theorem State.draw_inj : s.draw.2.inj = s.inj := rfl
@[simp] theorem State.draw_free : s.draw.2.free = s.free + 1 := rfl
@[simp] theorem State.draw_out : s.draw.2.out = s.out := rfl
@[simp] theorem State.draw_pending : s.draw.2.pending = s.pending := rfl
@[simp] theorem State.draw_reg (page off : Nat) : s.draw.2.reg page off = s.reg page off := rfl

/-! ## push -/

@[simp] theorem State.push_board (c : Instr) : (s.push c).board = s.board := rfl
@[simp] theorem State.push_boot (c : Instr) : (s.push c).boot = s.boot := rfl
@[simp] theorem State.push_regs (c : Instr) : (s.push c).regs = s.regs := rfl
@[simp] theorem State.push_mem (c : Instr) : (s.push c).mem = s.mem := rfl
@[simp] theorem State.push_cores (c : Instr) : (s.push c).cores = s.cores := rfl
@[simp] theorem State.push_arrs (c : Instr) : (s.push c).arrs = s.arrs := rfl
@[simp] theorem State.push_sync (c : Instr) : (s.push c).sync = s.sync := rfl
@[simp] theorem State.push_txn (c : Instr) : (s.push c).txn = s.txn := rfl
@[simp] theorem State.push_hbm (c : Instr) : (s.push c).hbm = s.hbm := rfl
@[simp] theorem State.push_xings (c : Instr) : (s.push c).xings = s.xings := rfl
@[simp] theorem State.push_link (c : Instr) : (s.push c).link = s.link := rfl
@[simp] theorem State.push_coll (c : Instr) : (s.push c).coll = s.coll := rfl
@[simp] theorem State.push_step (c : Instr) : (s.push c).step = s.step := rfl
@[simp] theorem State.push_hcq (c : Instr) : (s.push c).hcq = s.hcq := rfl
@[simp] theorem State.push_qps (c : Instr) : (s.push c).qps = s.qps := rfl
@[simp] theorem State.push_pwr (c : Instr) : (s.push c).pwr = s.pwr := rfl
@[simp] theorem State.push_thm (c : Instr) : (s.push c).thm = s.thm := rfl
@[simp] theorem State.push_shut (c : Instr) : (s.push c).shut = s.shut := rfl
@[simp] theorem State.push_sec (c : Instr) : (s.push c).sec = s.sec := rfl
@[simp] theorem State.push_inj (c : Instr) : (s.push c).inj = s.inj := rfl
@[simp] theorem State.push_free (c : Instr) : (s.push c).free = s.free := rfl
@[simp] theorem State.push_out (c : Instr) : (s.push c).out = s.out := rfl
@[simp] theorem State.push_pending (c : Instr) : (s.push c).pending = c :: s.pending := rfl
@[simp] theorem State.push_reg (c : Instr) (page off : Nat) : (s.push c).reg page off = s.reg page off := rfl

/-! ## The canonical form -/

@[simp] theorem State.settle_board : s.settle.board = s.board := rfl
@[simp] theorem State.settle_boot : s.settle.boot = s.boot := rfl
@[simp] theorem State.settle_txn : s.settle.txn = s.txn := rfl
@[simp] theorem State.settle_coll : s.settle.coll = s.coll := rfl
@[simp] theorem State.settle_step : s.settle.step = s.step := rfl
@[simp] theorem State.settle_qps : s.settle.qps = s.qps := rfl
@[simp] theorem State.settle_thm : s.settle.thm = s.thm := rfl
@[simp] theorem State.settle_shut : s.settle.shut = s.shut := rfl
@[simp] theorem State.settle_sec : s.settle.sec = s.sec := rfl
@[simp] theorem State.settle_free : s.settle.free = s.free := rfl
@[simp] theorem State.settle_out : s.settle.out = s.out := rfl
@[simp] theorem State.settle_pending : s.settle.pending = s.pending := rfl
@[simp] theorem State.settle_undef : s.settle.mem.undef = s.mem.undef := rfl
@[simp] theorem State.settle_sync_reqs : s.settle.sync.reqs = s.sync.reqs := rfl
@[simp] theorem State.settle_sync_wakes : s.settle.sync.wakes = s.sync.wakes := rfl
@[simp] theorem State.settle_sync_cancels : s.settle.sync.cancels = s.sync.cancels := rfl
@[simp] theorem State.settle_sync_signals : s.settle.sync.signals = s.sync.signals := rfl
@[simp] theorem State.settle_sync_views : s.settle.sync.views = s.sync.views := rfl
@[simp] theorem State.settle_sync_rot : s.settle.sync.rot = s.sync.rot := rfl
@[simp] theorem State.settle_sync_nextTag : s.settle.sync.nextTag = s.sync.nextTag := rfl
@[simp] theorem State.settle_link_inj : s.settle.link.inj = s.link.inj := rfl
@[simp] theorem State.settle_link_arrivals : s.settle.link.arrivals = s.link.arrivals := rfl
@[simp] theorem State.settle_link_reqs : s.settle.link.reqs = s.link.reqs := rfl
@[simp] theorem State.settle_link_nextTag : s.settle.link.nextTag = s.link.nextTag := rfl
@[simp] theorem State.settle_hcq_held : s.settle.hcq.held = s.hcq.held := rfl
@[simp] theorem State.settle_hcq_unacked : s.settle.hcq.unacked = s.hcq.unacked := rfl
@[simp] theorem State.settle_hcq_aside : s.settle.hcq.aside = s.hcq.aside := rfl
@[simp] theorem State.settle_hcq_image : s.settle.hcq.image = s.hcq.image := rfl
@[simp] theorem State.settle_hcq_entries : s.settle.hcq.entries = s.hcq.entries := rfl
@[simp] theorem State.settle_hcq_cfgDigest : s.settle.hcq.cfgDigest = s.hcq.cfgDigest := rfl
@[simp] theorem State.settle_hcq_starting : s.settle.hcq.starting = s.hcq.starting := rfl
@[simp] theorem State.settle_hcq_commits : s.settle.hcq.commits = s.hcq.commits := rfl
@[simp] theorem State.settle_hcq_pins : s.settle.hcq.pins = s.hcq.pins := rfl
@[simp] theorem State.settle_pwr_tokens : s.settle.pwr.tokens = s.pwr.tokens := rfl
@[simp] theorem State.settle_pwr_stopped : s.settle.pwr.stopped = s.pwr.stopped := rfl
@[simp] theorem State.settle_pwr_present : s.settle.pwr.present = s.pwr.present := rfl
@[simp] theorem State.settle_pwr_bleed : s.settle.pwr.bleed = s.pwr.bleed := rfl

end Sys2Proof.Machine
end

