-- ==== Sys2Proof/Laws/Crossing.lean ====
section
/-! SUPPORT. What the passage of data through a crossing changes: the crossing itself, and nothing else of the state; how the buffer of an
aligned crossing stands (R25 to R27). -/

namespace Sys2Proof.Machine

/-- An aligned buffer holds exactly its fill level, all of it idle. -/
theorem XBuf.filled_spec : XBuf.filled.buf.length = xingFill ∧ XBuf.filled.held = [] ∧ ∀ t ∈ XBuf.filled.buf, t = .idle := by
  refine ⟨rfl, rfl, fun t h => ?_⟩
  exact List.eq_of_mem_replicate h

/-- The presenting side adds one token at most, and none to a buffer that holds 15. -/
theorem XBuf.present_length (b : XBuf) :
    b.present.buf.length = if xingDepth - 1 ≤ b.buf.length then b.buf.length else b.buf.length + 1 := by
  unfold XBuf.present
  split
  · rfl
  · split <;> simp

/-- A buffer within its depth stays within it. -/
theorem XBuf.present_within {b : XBuf} (h : b.buf.length ≤ xingDepth) : b.present.buf.length ≤ xingDepth := by
  rw [XBuf.present_length]
  unfold xingDepth at *
  split <;> omega

/-- A packet that crosses towards the clockless side changes its crossing alone. -/
theorem State.crossIn_spec (s : State) (i : Nat) (p : Packet) : ∃ v, (s.crossIn i p).2 = s.setXing i v := ⟨_, rfl⟩

/-- A packet that crosses towards the clocked side changes its crossing alone. -/
theorem State.crossOut_spec (s : State) (i : Nat) (p : Packet) : ∃ v, (s.crossOut i p).2 = s.setXing i v := ⟨_, rfl⟩

end Sys2Proof.Machine
end

