-- ==== Sys2Proof/Laws/Tab.lean ====
section
/-! SUPPORT. What the operations on a sparse table read and keep: lookups after an update, rising keys, the
canonical form. -/

namespace Sys2Proof.Machine

variable {α : Type}

/-! ## Lookups -/

@[simp] theorem Tab.find_nil (k : Nat) : Tab.find ([] : Tab α) k = none := rfl

theorem Tab.find_cons (j : Nat) (w : α) (r : Tab α) (k : Nat) :
    Tab.find ((j, w) :: r) k = if j = k then some w else Tab.find r k := rfl

@[simp] theorem Tab.find_put (t : Tab α) (k j : Nat) (v : α) :
    Tab.find (Tab.put t k v) j = if j = k then some v else Tab.find t j := by
  induction t with
  | nil => simp only [Tab.put, Tab.find]; grind
  | cons e r ih =>
    obtain ⟨i, w⟩ := e
    simp only [Tab.put]
    split
    · simp only [Tab.find]; grind
    · split
      · simp only [Tab.find]; grind
      · simp only [Tab.find, ih]; grind

theorem Tab.find_del_ne (t : Tab α) {k j : Nat} (h : j ≠ k) : Tab.find (Tab.del t k) j = Tab.find t j := by
  induction t with
  | nil => rfl
  | cons e r ih =>
    obtain ⟨i, w⟩ := e
    simp only [Tab.del]
    split
    · simp only [Tab.find]; grind
    · split
      · rfl
      · simp only [Tab.find, ih]

theorem Tab.sortedFrom_mono {t : Tab α} {lo lo' : Nat} (h : Tab.sortedFrom lo t = true) (le : lo' ≤ lo) :
    Tab.sortedFrom lo' t = true := by
  cases t with
  | nil => rfl
  | cons e r => simp only [Tab.sortedFrom, Bool.and_eq_true, decide_eq_true_eq] at h ⊢; exact ⟨by omega, h.2⟩

theorem Tab.find_below {t : Tab α} {lo k : Nat} (h : Tab.sortedFrom lo t = true) (lt : k < lo) : Tab.find t k = none := by
  induction t generalizing lo with
  | nil => rfl
  | cons e r ih =>
    obtain ⟨i, w⟩ := e
    simp only [Tab.sortedFrom, Bool.and_eq_true, decide_eq_true_eq] at h
    simp only [Tab.find]
    rw [if_neg (by omega)]
    exact ih h.2 (by omega)

theorem Tab.find_del_self {t : Tab α} {lo k : Nat} (h : Tab.sortedFrom lo t = true) : Tab.find (Tab.del t k) k = none := by
  induction t generalizing lo with
  | nil => rfl
  | cons e r ih =>
    obtain ⟨i, w⟩ := e
    simp only [Tab.sortedFrom, Bool.and_eq_true, decide_eq_true_eq] at h
    simp only [Tab.del]
    split
    · exact Tab.find_below h.2 (by omega)
    · split
      · exact Tab.find_below (t := (i, w) :: r) (lo := i) (by simp [Tab.sortedFrom, h.2]) (by omega)
      · simp only [Tab.find]; rw [if_neg (by omega)]; exact ih h.2

/-! ## Rising keys -/

theorem Tab.sortedFrom_put {t : Tab α} {lo k : Nat} {v : α} (h : Tab.sortedFrom lo t = true) (le : lo ≤ k) :
    Tab.sortedFrom lo (Tab.put t k v) = true := by
  induction t generalizing lo with
  | nil => simp [Tab.put, Tab.sortedFrom, le]
  | cons e r ih =>
    obtain ⟨i, w⟩ := e
    simp only [Tab.sortedFrom, Bool.and_eq_true, decide_eq_true_eq] at h
    simp only [Tab.put]
    split
    · subst i; simp [Tab.sortedFrom, h.1, h.2]
    · split
      · simp only [Tab.sortedFrom, Bool.and_eq_true, decide_eq_true_eq]; exact ⟨le, by omega, h.2⟩
      · simp only [Tab.sortedFrom, Bool.and_eq_true, decide_eq_true_eq]; exact ⟨h.1, ih h.2 (by omega)⟩

theorem Tab.sortedFrom_del {t : Tab α} {lo k : Nat} (h : Tab.sortedFrom lo t = true) :
    Tab.sortedFrom lo (Tab.del t k) = true := by
  induction t generalizing lo with
  | nil => rfl
  | cons e r ih =>
    obtain ⟨i, w⟩ := e
    have h' := h
    simp only [Tab.sortedFrom, Bool.and_eq_true, decide_eq_true_eq] at h
    simp only [Tab.del]
    split
    · exact Tab.sortedFrom_mono h.2 (by omega)
    · split
      · exact h'
      · simp only [Tab.sortedFrom, Bool.and_eq_true, decide_eq_true_eq]; exact ⟨h.1, ih h.2⟩

theorem Tab.sortedFrom_set [DecidableEq α] {t : Tab α} {d v : α} {k : Nat} (h : Tab.sortedFrom 0 t = true) :
    Tab.sortedFrom 0 (Tab.set t d k v) = true := by
  unfold Tab.set
  split
  · exact Tab.sortedFrom_del h
  · exact Tab.sortedFrom_put h (Nat.zero_le k)

/-! ## Values -/

theorem Tab.get_set_ne [DecidableEq α] (t : Tab α) {d d' v : α} {k j : Nat} (h : j ≠ k) :
    Tab.get (Tab.set t d k v) d' j = Tab.get t d' j := by
  unfold Tab.get Tab.set
  split
  · rw [Tab.find_del_ne t h]
  · rw [Tab.find_put, if_neg h]

theorem Tab.get_set_self [DecidableEq α] {t : Tab α} (h : Tab.sortedFrom 0 t = true) (d v : α) (k : Nat) :
    Tab.get (Tab.set t d k v) d k = v := by
  unfold Tab.get Tab.set
  split
  · rw [Tab.find_del_self h]; subst_vars; rfl
  · simp

/-- What a table with rising keys reads at `j` after an update. -/
theorem Tab.get_set [DecidableEq α] {t : Tab α} (h : Tab.sortedFrom 0 t = true) (d v : α) (k j : Nat) :
    Tab.get (Tab.set t d k v) d j = if j = k then v else Tab.get t d j := by
  split
  · subst j; exact Tab.get_set_self h d v k
  · exact Tab.get_set_ne t ‹_›

/-! ## The canonical form -/

theorem Tab.all_del {t : Tab α} {k : Nat} {p : Nat × α → Bool} (h : t.all p = true) : (Tab.del t k).all p = true := by
  induction t with
  | nil => rfl
  | cons e r ih =>
    obtain ⟨i, w⟩ := e
    simp only [List.all_cons, Bool.and_eq_true] at h
    simp only [Tab.del]
    split
    · exact h.2
    · split
      · simp [h.1, h.2]
      · simp [h.1, ih h.2]

theorem Tab.all_put {t : Tab α} {k : Nat} {v : α} {p : Nat × α → Bool} (h : t.all p = true) (hv : p (k, v) = true) :
    (Tab.put t k v).all p = true := by
  induction t with
  | nil => simp [Tab.put, hv]
  | cons e r ih =>
    obtain ⟨i, w⟩ := e
    simp only [List.all_cons, Bool.and_eq_true] at h
    simp only [Tab.put]
    split
    · simp [hv, h.2]
    · split
      · simp [hv, h.1, h.2]
      · simp [h.1, ih h.2]

theorem Tab.wf_del {isD : Nat → α → Bool} {t : Tab α} (h : Tab.wf isD t = true) (k : Nat) : Tab.wf isD (Tab.del t k) = true := by
  simp only [Tab.wf, Bool.and_eq_true] at h ⊢
  exact ⟨Tab.sortedFrom_del h.1, Tab.all_del h.2⟩

theorem Tab.wf_put {isD : Nat → α → Bool} {t : Tab α} (h : Tab.wf isD t = true) {k : Nat} {v : α} (hv : isD k v = false) :
    Tab.wf isD (Tab.put t k v) = true := by
  simp only [Tab.wf, Bool.and_eq_true] at h ⊢
  exact ⟨Tab.sortedFrom_put h.1 (Nat.zero_le k), Tab.all_put h.2 (by simp [hv])⟩

/-- A normalised table is canonical, whatever it was before. -/
theorem Tab.wf_norm (isD : Nat → α → Bool) (t : Tab α) : Tab.wf isD (Tab.norm isD t) = true := by
  induction t with
  | nil => rfl
  | cons e r ih =>
    obtain ⟨i, w⟩ := e
    simp only [Tab.norm]
    split
    · exact Tab.wf_del ih i
    · exact Tab.wf_put ih (by simp_all)

theorem Tab.wf_sorted {isD : Nat → α → Bool} {t : Tab α} (h : Tab.wf isD t = true) : Tab.sortedFrom 0 t = true := by
  simp only [Tab.wf, Bool.and_eq_true] at h; exact h.1

theorem Tab.sorted_norm (isD : Nat → α → Bool) (t : Tab α) : Tab.sortedFrom 0 (Tab.norm isD t) = true :=
  Tab.wf_sorted (Tab.wf_norm isD t)

/-- Normalising a table leaves what it lists, but for entries that say what an unlisted key reads as. -/
theorem Tab.find_norm (isD : Nat → α → Bool) (t : Tab α) (k : Nat) :
    Tab.find (Tab.norm isD t) k = (Tab.find t k).filter (fun v => !isD k v) := by
  induction t with
  | nil => rfl
  | cons e r ih =>
    obtain ⟨i, w⟩ := e
    simp only [Tab.norm, Tab.find]
    by_cases hik : i = k
    · subst i
      rw [if_pos rfl]
      split
      · rw [Tab.find_del_self (Tab.sorted_norm isD r)]; simp [Option.filter, *]
      · rw [Tab.find_put, if_pos rfl]; simp [Option.filter, *]
    · rw [if_neg hik, ← ih]
      split
      · exact Tab.find_del_ne _ (fun h => hik h.symm)
      · rw [Tab.find_put, if_neg (fun h => hik h.symm)]

/-- Normalising changes nothing that can be read. -/
theorem Tab.get_norm {isD : Nat → α → Bool} {d : α} {k : Nat} (h : ∀ v, isD k v = true → v = d) (t : Tab α) :
    Tab.get (Tab.norm isD t) d k = Tab.get t d k := by
  unfold Tab.get
  rw [Tab.find_norm]
  cases hf : Tab.find t k with
  | none => rfl
  | some v =>
    cases hv : isD k v
    · simp [Option.filter, hv]
    · rw [h v hv]; simp only [Option.filter]; split <;> rfl

/-- Normalising a table in canonical form leaves it as it is. -/
theorem Tab.norm_wf {isD : Nat → α → Bool} {t : Tab α} (h : Tab.wf isD t = true) : Tab.norm isD t = t := by
  simp only [Tab.wf, Bool.and_eq_true] at h
  obtain ⟨hs, ha⟩ := h
  generalize 0 = lo at hs
  induction t generalizing lo with
  | nil => rfl
  | cons e r ih =>
    simp only [Tab.sortedFrom, Bool.and_eq_true, List.all_cons] at hs ha
    simp only [Tab.norm, ih ha.2 _ hs.2]
    have he : isD e.1 e.2 = false := by simpa using ha.1
    rw [he]
    simp only [Bool.false_eq_true, if_false]
    cases r with
    | nil => rfl
    | cons f q =>
      simp only [Tab.sortedFrom, Bool.and_eq_true, decide_eq_true_eq] at hs
      simp only [Tab.put]
      rw [if_neg (by omega), if_pos (by omega)]

end Sys2Proof.Machine
end

