-- ==== Sys2Proof/Laws/Memory.lean ====
section
/-! SUPPORT. Memory and registers: the canonical form is kept by every operation, a byte reads what was written
to it last, and putting a state in canonical form changes nothing that can be read. -/

namespace Sys2Proof.Machine

/-! ## The parts of the canonical form -/

theorem Memory.wf_iff (m : Mem) :
    Memory.wf m = true ↔ Tab.wf m.isDef m.cells = true ∧ Tab.wf m.isClean m.poison = true := by
  simp [Memory.wf]

theorem Mem.isDef_undef {m n : Mem} (h : m.undef = n.undef) : m.isDef = n.isDef := by
  funext a v; simp [Mem.isDef, Mem.inUndef, h]

theorem Mem.isClean_undef {m n : Mem} (h : m.undef = n.undef) : m.isClean = n.isClean := by
  funext a v; simp [Mem.isClean, Mem.inUndef, h]

/-! ## Memory operations keep the canonical form -/

@[simp] theorem Mem.putByte_undef (m : Mem) (a : Nat) (v : Byte) : (m.putByte a v).undef = m.undef := rfl
@[simp] theorem Mem.putByte_poison (m : Mem) (a : Nat) (v : Byte) : (m.putByte a v).poison = m.poison := rfl
@[simp] theorem Mem.setPoison_undef (m : Mem) (l : Nat) (b : Bool) : (m.setPoison l b).undef = m.undef := rfl
@[simp] theorem Mem.setPoison_cells (m : Mem) (l : Nat) (b : Bool) : (m.setPoison l b).cells = m.cells := rfl

theorem Memory.wf_putByte {m : Mem} (h : Memory.wf m = true) (a : Nat) (v : Byte) : Memory.wf (m.putByte a v) = true := by
  rw [Memory.wf_iff] at h ⊢
  rw [Mem.isDef_undef (Mem.putByte_undef m a v), Mem.isClean_undef (Mem.putByte_undef m a v), Mem.putByte_poison]
  refine ⟨?_, h.2⟩
  simp only [Mem.putByte]
  split
  · exact Tab.wf_del h.1 a
  · exact Tab.wf_put h.1 (by simp_all)

theorem Memory.wf_setPoison {m : Mem} (h : Memory.wf m = true) (l : Nat) (b : Bool) : Memory.wf (m.setPoison l b) = true := by
  rw [Memory.wf_iff] at h ⊢
  rw [Mem.isDef_undef (Mem.setPoison_undef m l b), Mem.isClean_undef (Mem.setPoison_undef m l b), Mem.setPoison_cells]
  refine ⟨h.1, ?_⟩
  simp only [Mem.setPoison]
  split
  · exact Tab.wf_put h.2 (by simp [Mem.isClean])
  · split
    · exact Tab.wf_del h.2 l
    · exact Tab.wf_put h.2 (by simp_all)

theorem Memory.wf_putBytes {m : Mem} (h : Memory.wf m = true) (a : Nat) (bs : List Byte) :
    Memory.wf (m.putBytes a bs) = true := by
  induction bs generalizing m a with
  | nil => exact h
  | cons b r ih => exact ih (Memory.wf_putByte h a b) (a + 1)

theorem Memory.wf_write {m : Mem} (h : Memory.wf m = true) (a : Nat) (bs : List Byte) : Memory.wf (m.write a bs) = true := by
  unfold Mem.write
  generalize fullLines a bs.length = ls
  have h' := Memory.wf_putBytes h a bs
  generalize m.putBytes a bs = n at h'
  induction ls generalizing n with
  | nil => exact h'
  | cons l r ih => exact ih _ (Memory.wf_setPoison h' l false)

/-- Whatever a state holds, putting it in canonical form makes its registers and its memory canonical. -/
theorem Regs.wf_settle (s : State) : Regs.wf s.settle.regs = true := Tab.wf_norm _ _

theorem Memory.wf_settle (s : State) : Memory.wf s.settle.mem = true := by
  rw [Memory.wf_iff]; exact ⟨Tab.wf_norm _ _, Tab.wf_norm _ _⟩

theorem Tables.wf_settle (s : State) : Tables.wf s.settle = true := by
  simp only [Tables.wf, State.settle, Tab.wf_norm, Bool.and_true]

theorem Tables.wf_reset : Tables.wf State.reset = true := rfl

theorem Regs.wf_reset : Regs.wf State.reset.regs = true := rfl

theorem Memory.wf_reset : Memory.wf State.reset.mem = true := rfl

/-! ## A byte reads what was written last -/

@[simp] theorem Mem.undefAt_putByte (m : Mem) (a : Nat) (v : Byte) (b : Nat) : (m.putByte a v).undefAt b = m.undefAt b := rfl

theorem Mem.byte_putByte_ne (m : Mem) {a b : Nat} (v : Byte) (h : b ≠ a) : (m.putByte a v).byte b = m.byte b := by
  have : Tab.find (m.putByte a v).cells b = Tab.find m.cells b := by
    simp only [Mem.putByte]
    split
    · exact Tab.find_del_ne _ h
    · rw [Tab.find_put, if_neg h]
  simp only [Mem.byte, this, Mem.undefAt_putByte]

theorem Mem.undefAt_none {m : Mem} {a : Nat} (h : m.inUndef a = false) : m.undefAt a = none := by
  simp only [Mem.inUndef, List.any_eq_false] at h
  simp only [Mem.undefAt, Option.map_eq_none_iff, List.find?_eq_none]
  exact h

theorem Mem.byte_putByte_self {m : Mem} (h : Memory.wf m = true) (a : Nat) (v : Byte) : (m.putByte a v).byte a = v := by
  rw [Memory.wf_iff] at h
  by_cases hd : m.isDef a v = true
  · have hc : Tab.find (m.putByte a v).cells a = none := by
      simp only [Mem.putByte, hd, if_true]; exact Tab.find_del_self (Tab.wf_sorted h.1)
    simp only [Mem.isDef, Bool.and_eq_true, beq_iff_eq, Bool.not_eq_true'] at hd
    have hu : (m.putByte a v).undefAt a = none := Mem.undefAt_none hd.2
    simp only [Mem.byte, hc, hu]
    exact hd.1.symm
  · have hc : Tab.find (m.putByte a v).cells a = some v := by
      simp only [Mem.putByte, hd]; simp
    simp only [Mem.byte, hc]

theorem Mem.byte_putBytes_out (m : Mem) (a : Nat) (bs : List Byte) (b : Nat) (h : b < a ∨ a + bs.length ≤ b) :
    (m.putBytes a bs).byte b = m.byte b := by
  induction bs generalizing m a with
  | nil => rfl
  | cons v r ih =>
    simp only [List.length_cons] at h
    simp only [Mem.putBytes]
    rw [ih _ _ (by omega), Mem.byte_putByte_ne m v (by omega)]

@[simp] theorem Mem.setPoison_byte (m : Mem) (l : Nat) (p : Bool) (b : Nat) : (m.setPoison l p).byte b = m.byte b := rfl

theorem Mem.byte_foldl_setPoison (ls : List Nat) (m : Mem) (b : Nat) :
    (ls.foldl (fun m l => Mem.setPoison m l false) m).byte b = m.byte b := by
  induction ls generalizing m with
  | nil => rfl
  | cons l r ih => simp [ih]

/-- A write leaves every byte outside it. -/
theorem Mem.byte_write_out (m : Mem) (a : Nat) (bs : List Byte) (b : Nat) (h : b < a ∨ a + bs.length ≤ b) :
    (m.write a bs).byte b = m.byte b := by
  unfold Mem.write; rw [Mem.byte_foldl_setPoison, Mem.byte_putBytes_out m a bs b h]

/-! ## Reads of a state in canonical form -/

theorem Mem.isDef_zero {m : Mem} {a : Nat} {v : Byte} (h : m.isDef a v = true) : v = 0 ∧ m.undefAt a = none := by
  simp only [Mem.isDef, Bool.and_eq_true, beq_iff_eq, Bool.not_eq_true'] at h
  exact ⟨h.1, Mem.undefAt_none h.2⟩

theorem Mem.isClean_one {m : Mem} {l v : Nat} (h : m.isClean l v = true) : v = 1 ∧ m.undefAt (l * 64) = none := by
  simp only [Mem.isClean, Bool.and_eq_true, beq_iff_eq, Bool.not_eq_true'] at h
  exact ⟨h.1, Mem.undefAt_none h.2⟩

@[simp] theorem State.settle_undefAt (s : State) (a : Nat) : s.settle.mem.undefAt a = s.mem.undefAt a := rfl

/-- Every byte of memory reads the same. -/
@[simp] theorem State.settle_byte (s : State) (a : Nat) : s.settle.mem.byte a = s.mem.byte a := by
  have hc : Tab.find s.settle.mem.cells a = (Tab.find s.mem.cells a).filter (fun v => !s.mem.isDef a v) := Tab.find_norm _ _ _
  simp only [Mem.byte, hc, State.settle_undefAt]
  cases hf : Tab.find s.mem.cells a with
  | none => rfl
  | some v =>
    cases hv : s.mem.isDef a v with
    | true =>
      obtain ⟨h0, hu⟩ := Mem.isDef_zero hv
      subst h0
      simp only [Option.filter, hv, hu, Bool.not_true, Bool.false_eq_true, if_false]
    | false => simp [Option.filter, hv]

/-- The poison of every line reads the same. -/
@[simp] theorem State.settle_lineBad (s : State) (l : Nat) : s.settle.mem.lineBad l = s.mem.lineBad l := by
  have hc : Tab.find s.settle.mem.poison l = (Tab.find s.mem.poison l).filter (fun v => !s.mem.isClean l v) := Tab.find_norm _ _ _
  simp only [Mem.lineBad, hc, State.settle_undefAt]
  cases hf : Tab.find s.mem.poison l with
  | none => rfl
  | some v =>
    cases hv : s.mem.isClean l v with
    | true =>
      obtain ⟨h0, hu⟩ := Mem.isClean_one hv
      subst h0
      simp only [Option.filter, hv, hu, Bool.not_true, Bool.false_eq_true, if_false]
      rfl
    | false => simp [Option.filter, hv]

/-- Every register reads the same. -/
@[simp] theorem State.settle_reg (s : State) (page off : Nat) : s.settle.reg page off = s.reg page off := by
  unfold State.reg State.settle
  exact Tab.get_norm (by intro v h; simpa [isResetVal] using h) _

@[simp] theorem State.settle_rf (s : State) (page off hi lo : Nat) : s.settle.rf page off hi lo = s.rf page off hi lo := by
  simp [State.rf]

/-! ## Reads of the other tables -/

theorem Tab.get_settled {α : Type} [DecidableEq α] (d : α) (t : Tab α) (k : Nat) :
    Tab.get (Tab.norm (isFresh d) t) d k = Tab.get t d k :=
  Tab.get_norm (by intro v h; simpa [isFresh] using h) t

@[simp] theorem State.settle_core (s : State) (n : Nat) : s.settle.core n = s.core n := Tab.get_settled _ _ _
@[simp] theorem State.settle_ctx (s : State) (n x : Nat) : s.settle.ctx n x = s.ctx n x := by
  simp only [State.ctx, State.settle_core]
@[simp] theorem State.settle_arr (s : State) (n a : Nat) : s.settle.arr n a = s.arr n a := Tab.get_settled _ _ _
@[simp] theorem State.settle_obj (s : State) (u k i : Nat) : s.settle.obj u k i = s.obj u k i := Tab.get_settled _ _ _
@[simp] theorem State.settle_stack (s : State) (i : Nat) : s.settle.stack i = s.stack i := Tab.get_settled _ _ _
@[simp] theorem State.settle_adder (s : State) (i : Nat) : s.settle.adder i = s.adder i := Tab.get_settled _ _ _
@[simp] theorem State.settle_port (s : State) (p : Nat) : s.settle.port p = s.port p := Tab.get_settled _ _ _
@[simp] theorem State.settle_queue (s : State) (q : Nat) : s.settle.queue q = s.queue q := Tab.get_settled _ _ _
@[simp] theorem State.settle_island (s : State) (i : Nat) : s.settle.island i = s.island i := Tab.get_settled _ _ _
@[simp] theorem State.settle_xing (s : State) (i : Nat) : s.settle.xing i = s.xing i := Tab.get_settled _ _ _

/-! ## The keys of the tables of a state in canonical form rise -/

theorem Tables.wf_parts {s : State} (h : Tables.wf s = true) :
    Tab.wf (isFresh {}) s.cores = true ∧ Tab.wf (isFresh {}) s.arrs = true ∧ Tab.wf (isFresh {}) s.sync.objs = true ∧
      Tab.wf (isFresh {}) s.hbm.stk = true ∧ Tab.wf (isFresh {}) s.hbm.adders = true ∧ Tab.wf (isFresh {}) s.link.ports = true ∧
      Tab.wf (isFresh {}) s.hcq.queues = true ∧ Tab.wf (isFresh {}) s.pwr.islands = true ∧ Tab.wf (isFresh 0) s.inj = true ∧
      Tab.wf (isFresh {}) s.xings = true := by
  simpa [Tables.wf, and_assoc] using h

/-- A core reads what it was set to. -/
theorem State.core_setCore {s : State} (h : Tables.wf s = true) (n m : Nat) (c : Core) :
    (s.setCore n c).core m = if m = n then c else s.core m := Tab.get_set (Tab.wf_sorted (Tables.wf_parts h).1) _ _ _ _

/-- A context of another core stands; the other context of the same core does too. -/
theorem State.core_setCore_ne (s : State) {n m : Nat} (c : Core) (h : m ≠ n) : (s.setCore n c).core m = s.core m :=
  Tab.get_set_ne _ h

theorem State.ctx_setCtx {s : State} (h : Tables.wf s = true) (n : Nat) {x : Nat} (v : Ctx) (hx : x < 2) :
    (s.setCtx n x v).ctx n x = v := by
  have e : (s.setCtx n x v).core n = (s.core n).setCtx x v := by
    unfold State.setCtx; rw [State.core_setCore h]; simp
  simp only [State.ctx, e]
  interval_cases x <;> rfl

theorem State.arr_setArr {s : State} (h : Tables.wf s = true) (n a : Nat) (v : Arr) : (s.setArr n a v).arr n a = v :=
  Tab.get_set_self (Tab.wf_sorted (Tables.wf_parts h).2.1) _ _ _

theorem State.obj_setObj {s : State} (h : Tables.wf s = true) (u k i : Nat) (o : Obj) : (s.setObj u k i o).obj u k i = o :=
  Tab.get_set_self (Tab.wf_sorted (Tables.wf_parts h).2.2.1) _ _ _

theorem State.obj_setObj_ne (s : State) {u k i u' k' i' : Nat} (o : Obj) (h : objKey u' k' i' ≠ objKey u k i) :
    (s.setObj u k i o).obj u' k' i' = s.obj u' k' i' := Tab.get_set_ne _ h

theorem State.stack_setStack {s : State} (h : Tables.wf s = true) (i : Nat) (v : Stack) : (s.setStack i v).stack i = v :=
  Tab.get_set_self (Tab.wf_sorted (Tables.wf_parts h).2.2.2.1) _ _ _

theorem State.adder_setAdder {s : State} (h : Tables.wf s = true) (i : Nat) (v : Adder) : (s.setAdder i v).adder i = v :=
  Tab.get_set_self (Tab.wf_sorted (Tables.wf_parts h).2.2.2.2.1) _ _ _

theorem State.port_setPort {s : State} (h : Tables.wf s = true) (p : Nat) (v : Port) : (s.setPort p v).port p = v :=
  Tab.get_set_self (Tab.wf_sorted (Tables.wf_parts h).2.2.2.2.2.1) _ _ _

theorem State.queue_setQueue {s : State} (h : Tables.wf s = true) (q : Nat) (v : Queue) : (s.setQueue q v).queue q = v :=
  Tab.get_set_self (Tab.wf_sorted (Tables.wf_parts h).2.2.2.2.2.2.1) _ _ _

theorem State.island_setIsland {s : State} (h : Tables.wf s = true) (i : Nat) (v : Island) : (s.setIsland i v).island i = v :=
  Tab.get_set_self (Tab.wf_sorted (Tables.wf_parts h).2.2.2.2.2.2.2.1) _ _ _

theorem State.xing_setXing {s : State} (h : Tables.wf s = true) (i : Nat) (v : Xing) : (s.setXing i v).xing i = v :=
  Tab.get_set_self (Tab.wf_sorted (Tables.wf_parts h).2.2.2.2.2.2.2.2.2) _ _ _

/-! ## Registers -/

/-- The register table has its keys rising: what a register reads after a write rests on it. -/
theorem Regs.sorted_of_wf {t : Tab Word} (h : Regs.wf t = true) : Tab.sortedFrom 0 t = true := Tab.wf_sorted h

theorem State.sorted_setReg {s : State} (h : Tab.sortedFrom 0 s.regs = true) (p o : Nat) (v : Word) :
    Tab.sortedFrom 0 (s.setReg p o v).regs = true := Tab.sortedFrom_set h

theorem State.sorted_setRf {s : State} (h : Tab.sortedFrom 0 s.regs = true) (p o hi lo v : Nat) :
    Tab.sortedFrom 0 (s.setRf p o hi lo v).regs = true := State.sorted_setReg h p o _

theorem State.sorted_addReg {s : State} (h : Tab.sortedFrom 0 s.regs = true) (p o n : Nat) :
    Tab.sortedFrom 0 (s.addReg p o n).regs = true := State.sorted_setReg h p o _

/-- Two registers of one page, or of two, share no key. -/
theorem regKey_inj {p o p' o' : Nat} (h : o < 4096) (h' : o' < 4096) : regKey p o = regKey p' o' ↔ p = p' ∧ o = o' := by
  unfold regKey; omega

theorem State.reg_setReg_self {s : State} (h : Tab.sortedFrom 0 s.regs = true) (p o : Nat) (v : Word) :
    (s.setReg p o v).reg p o = v := Tab.get_set_self h _ v _

theorem State.reg_setReg_ne (s : State) {p o p' o' : Nat} (v : Word) (h : regKey p' o' ≠ regKey p o) :
    (s.setReg p o v).reg p' o' = s.reg p' o' := Tab.get_set_ne _ h

theorem State.reg_addReg_self {s : State} (h : Tab.sortedFrom 0 s.regs = true) (p o n : Nat) :
    (s.addReg p o n).reg p o = s.reg p o + BitVec.ofNat 64 n := State.reg_setReg_self h p o _

theorem State.reg_addReg_ne (s : State) {p o p' o' : Nat} (n : Nat) (h : regKey p' o' ≠ regKey p o) :
    (s.addReg p o n).reg p' o' = s.reg p' o' := State.reg_setReg_ne s _ h

theorem State.reg_setRf_self {s : State} (h : Tab.sortedFrom 0 s.regs = true) (p o hi lo v : Nat) :
    (s.setRf p o hi lo v).reg p o = setFld (s.reg p o) hi lo v := State.reg_setReg_self h p o _

theorem State.reg_setRf_ne (s : State) {p o p' o' : Nat} (hi lo v : Nat) (h : regKey p' o' ≠ regKey p o) :
    (s.setRf p o hi lo v).reg p' o' = s.reg p' o' := State.reg_setReg_ne s _ h

end Sys2Proof.Machine
end

