-- ==== Sys2Proof/Laws/Outcome.lean ====
section
/-! SUPPORT. What a meaning can answer: for each way of answering, when it answers a next state and which; and
that every next state is one in canonical form. -/

namespace Sys2Proof.Machine

/-- Every next state of an answer is a state put in canonical form. -/
def Settles (r : Res) : Prop := ∀ t, r = .next t → ∃ u : State, t = u.settle

theorem State.done_eq (s : State) : s.done = .next s.settle := rfl

theorem State.advance_eq (s : State) : s.advance = .next s.progress.settle := rfl

theorem occurs_of {p : Bool} (h : p = true) (s : State) : occurs p s = .next s.settle := by simp [occurs, h, State.done]

theorem happens_of {p : Bool} (h : p = true) (s : State) : happens p s = .next s.progress.settle := by
  simp [happens, h, State.advance, State.done]

theorem wellFormed_of {p : Bool} (h : p = true) (r : Res) : wellFormed p r = r := by simp [wellFormed, h]

theorem done_next {s t : State} : s.done = .next t ↔ t = s.settle := by
  simp only [State.done_eq, Host.Outcome.next.injEq]; exact eq_comm

theorem advance_next {s t : State} : s.advance = .next t ↔ t = s.progress.settle := by
  simp only [State.advance_eq, Host.Outcome.next.injEq]; exact eq_comm

/-- An event of the package's own takes effect where its condition holds, and only there. -/
theorem occurs_next {p : Bool} {s t : State} : occurs p s = .next t ↔ p = true ∧ t = s.settle := by
  cases p <;> simp [occurs, State.done, eq_comm]

theorem happens_next {p : Bool} {s t : State} : happens p s = .next t ↔ p = true ∧ t = s.progress.settle := by
  cases p <;> simp [happens, State.advance, State.done, eq_comm]

theorem wellFormed_next {p : Bool} {r : Res} {t : State} : wellFormed p r = .next t ↔ p = true ∧ r = .next t := by
  cases p <;> simp [wellFormed]

/-! ## Every next state is in canonical form -/

theorem Settles.done (s : State) : Settles s.done := fun _ h => ⟨s, done_next.1 h⟩

theorem Settles.advance (s : State) : Settles s.advance := fun _ h => ⟨s.progress, advance_next.1 h⟩

theorem Settles.fault (f : Fault) : Settles (.fault f) := fun _ h => by cases h

theorem Settles.refused (f : Refusal) : Settles (.refused f) := fun _ h => by cases h

theorem Settles.occurs (p : Bool) (s : State) : Settles (occurs p s) := fun _ h => ⟨s, (occurs_next.1 h).2⟩

theorem Settles.happens (p : Bool) (s : State) : Settles (happens p s) := fun _ h => ⟨s.progress, (happens_next.1 h).2⟩

theorem Settles.wellFormed {r : Res} (p : Bool) (h : Settles r) : Settles (wellFormed p r) :=
  fun t e => h t (wellFormed_next.1 e).2

theorem Settles.ite {c : Prop} [Decidable c] {a b : Res} (ha : Settles a) (hb : Settles b) : Settles (if c then a else b) := by
  split <;> assumption

theorem Settles.serveRow (s : State) (page off : Nat) (src : Src) (eff : Nat × State) : Settles (s.serveRow page off src eff) := by
  unfold State.serveRow
  cases src with
  | host => exact Settles.ite (Settles.advance _) (Settles.done _)
  | program n x => exact Settles.happens _ _
  | keyhole => exact Settles.advance _

theorem Settles.issueGen (s : State) (i : Issue) (cls : Nat) (bad : Option (Ins → State → State)) (lines : List Nat) :
    Settles (s.issueGen i cls bad lines) := by
  unfold State.issueGen
  refine Settles.ite (Settles.fault _) (Settles.ite (Settles.advance _) ?_)
  cases bad with
  | some f => exact Settles.advance _
  | none => exact Settles.ite (Settles.advance _) (Settles.done _)

theorem Settles.issue (s : State) (i : Issue) (cls unit fcls : Nat) (bad : Option Refuse) (lines : List Nat) :
    Settles (s.issue i cls unit fcls bad lines) := Settles.issueGen _ _ _ _ _

theorem Settles.runCmd (s : State) (q op : Nat) (checks : Cmd → List Check) (states : List Nat) (eff : Cmd → State → State) :
    Settles (s.runCmd q op checks states eff) := by
  unfold State.runCmd
  split
  · exact Settles.fault _
  · exact Settles.happens _ _

/-- A state put in canonical form meets the invariant, whatever it was before. -/
theorem inv_settle (s : State) : Safety.Inv s.settle := ⟨Regs.wf_settle s, Memory.wf_settle s, Tables.wf_settle s⟩

theorem Settles.inv {r : Res} (h : Settles r) {t : State} (e : r = .next t) : Safety.Inv t := by
  obtain ⟨u, rfl⟩ := h t e; exact inv_settle u

/-- A memory in canonical form stands when a state is put in canonical form. -/
theorem State.settle_mem {s : State} (h : Memory.wf s.mem = true) : s.settle.mem = s.mem := by
  rw [Memory.wf_iff] at h
  have hc : Tab.norm s.mem.isDef s.mem.cells = s.mem.cells := Tab.norm_wf h.1
  have hp : Tab.norm s.mem.isClean s.mem.poison = s.mem.poison := Tab.norm_wf h.2
  unfold State.settle
  dsimp only
  rw [hc, hp]

theorem State.settle_cores {s : State} (h : Tables.wf s = true) : s.settle.cores = s.cores := Tab.norm_wf (Tables.wf_parts h).1
theorem State.settle_arrs {s : State} (h : Tables.wf s = true) : s.settle.arrs = s.arrs := Tab.norm_wf (Tables.wf_parts h).2.1
theorem State.settle_regs {s : State} (h : Regs.wf s.regs = true) : s.settle.regs = s.regs := Tab.norm_wf h
theorem State.settle_sync {s : State} (h : Tables.wf s = true) : s.settle.sync = s.sync := by
  have e : Tab.norm (isFresh {}) s.sync.objs = s.sync.objs := Tab.norm_wf (Tables.wf_parts h).2.2.1
  unfold State.settle; dsimp only; rw [e]
theorem State.settle_hcq {s : State} (h : Tables.wf s = true) : s.settle.hcq = s.hcq := by
  have e : Tab.norm (isFresh {}) s.hcq.queues = s.hcq.queues := Tab.norm_wf (Tables.wf_parts h).2.2.2.2.2.2.1
  unfold State.settle; dsimp only; rw [e]

/-! ## Register writes -/

/-- A register write that reaches the package is answered with a next state, whatever its page says. -/
theorem serveRow_host {s : State} (h : s.hostReach = true) (page off : Nat) (eff : Nat × State) :
    s.serveRow page off .host eff = .next (s.answerWrite page off .host eff).progress.settle := by
  simp [State.serveRow, h, State.advance, State.done]

theorem serveRow_keyhole (s : State) (page off : Nat) (eff : Nat × State) :
    s.serveRow page off .keyhole eff = .next (s.answerWrite page off .keyhole eff).progress.settle := rfl

theorem serveRow_program {s : State} {n : CoreId} {x : CtxId} (h : s.runs n.val x.val = true) (page off : Nat) (eff : Nat × State) :
    s.serveRow page off (.program n x) eff = .next (s.answerWrite page off (.program n x) eff).progress.settle :=
  happens_of h _

/-- A write that its page accepts has its own effect. -/
theorem answerWrite_ok {s : State} {page off : Nat} (src : Src) {eff : Nat × State} (hp : s.pageCode page off = none)
    (hc : eff.1 = cOK) : s.answerWrite page off src eff = eff.2 := by
  simp [State.answerWrite, hp, hc]

/-- A write that its page turns away is recorded in REASON and has no effect of its own. -/
theorem answerWrite_refused {s : State} {page off : Nat} (src : Src) {eff : Nat × State} (hp : s.pageCode page off = none)
    (hc : eff.1 ≠ cOK) : s.answerWrite page off src eff = s.refuseWrite page off eff.1 src := by
  simp [State.answerWrite, hp, hc]

theorem answerWrite_page {s : State} {page off c : Nat} (src : Src) {eff : Nat × State} (hp : s.pageCode page off = some c) :
    s.answerWrite page off src eff = s.refuseWrite page off c src := by
  simp [State.answerWrite, hp]

end Sys2Proof.Machine
end

