-- ==== Sys2Proof/Laws/Events.lean ====
section
/-! SUPPORT. What raising an event, a freeze and a fatal error can change: the registers they write, the host
records, the outputs, the pins they drive; everything else stands (R65, R393 to R397, R466). -/

namespace Sys2Proof.Machine

/-- A fold over states keeps what each of its steps keeps. -/
theorem foldl_keep {β γ : Type} (g : State → γ) (f : State → β → State) (h : ∀ s b, g (f s b) = g s) (l : List β) (s : State) :
    g (l.foldl f s) = g s := by
  induction l generalizing s with
  | nil => rfl
  | cons b r ih => rw [List.foldl_cons, ih, h]

/-- The state without what an event may change: registers, held and unacknowledged records, outputs, SHUTTER_N, the controllers, the
ramps of the islands, the draws and the Shutter's own counters. -/
@[irreducible] def State.unraised (s : State) : State :=
  { s with
    regs := []
    hcq := { s.hcq with
      held := []
      unacked := [] }
    out := []
    board := { s.board with shutter := false }
    hbm := {}
    pwr := { s.pwr with
      islands := []
      tokens := [] }
    free := 0
    shut := {} }

@[simp] theorem State.setReg_unraised (s : State) (p o : Nat) (v : Word) : (s.setReg p o v).unraised = s.unraised := by
  unfold State.unraised; rfl
@[simp] theorem State.setRf_unraised (s : State) (p o hi lo v : Nat) : (s.setRf p o hi lo v).unraised = s.unraised :=
  State.setReg_unraised _ _ _ _
@[simp] theorem State.addReg_unraised (s : State) (p o n : Nat) : (s.addReg p o n).unraised = s.unraised :=
  State.setReg_unraised _ _ _ _
@[simp] theorem State.setEvtSeq_unraised (s : State) : s.setEvtSeq.unraised = s.unraised := by
  simp only [State.setEvtSeq, State.setReg_unraised]
theorem State.withHeld_unraised (s : State) (l : List Rec) : ({ s with hcq := { s.hcq with held := l } } : State).unraised = s.unraised := by
  unfold State.unraised; rfl
theorem State.withUnacked_unraised (s : State) (l : List Rec) :
    ({ s with hcq := { s.hcq with unacked := l } } : State).unraised = s.unraised := by
  unfold State.unraised; rfl
theorem State.withShut_unraised (s : State) (h : ShutSt) : ({ s with shut := h } : State).unraised = s.unraised := by
  unfold State.unraised; rfl
@[simp] theorem State.setStack_unraised (s : State) (i : Nat) (v : Stack) : (s.setStack i v).unraised = s.unraised := by
  unfold State.unraised; rfl
@[simp] theorem State.emit_unraised (s : State) (o : Out) : (s.emit o).unraised = s.unraised := by
  unfold State.unraised; rfl
@[simp] theorem State.draw_unraised (s : State) : s.draw.2.unraised = s.unraised := by
  unfold State.unraised; rfl

theorem State.withTokens_unraised (s : State) (l : List Nat) : ({ s with pwr := { s.pwr with tokens := l } } : State).unraised = s.unraised := by
  unfold State.unraised; rfl
@[simp] theorem State.setIsland_unraised (s : State) (i : Nat) (v : Island) : (s.setIsland i v).unraised = s.unraised := by
  unfold State.unraised; rfl
@[simp] theorem State.transmit_unraised (s : State) (p n : Nat) : (s.transmit p n).unraised = s.unraised := by
  simp only [State.transmit, State.addReg_unraised, State.emit_unraised]

@[simp] theorem State.requestRamp_unraised (s : State) (i v : Nat) : (s.requestRamp i v).unraised = s.unraised := by
  simp only [State.requestRamp]; split <;> simp only [State.withTokens_unraised, State.setIsland_unraised]
@[simp] theorem State.rampDown_unraised (s : State) (i v : Nat) : (s.rampDown i v).unraised = s.unraised := by
  simp only [State.rampDown]; split <;> simp only [State.requestRamp_unraised]

@[simp] theorem State.writeRec_unraised (s : State) (r : Rec) : (s.writeRec r).unraised = s.unraised := by
  simp only [State.writeRec, State.withUnacked_unraised, State.setRf_unraised, State.transmit_unraised, State.emit_unraised]

@[simp] theorem State.nextDseq_unraised (s : State) : s.nextDseq.2.unraised = s.unraised := by
  simp only [State.nextDseq, State.addReg_unraised]

@[simp] theorem State.setEvent_unraised (s : State) (p b : Nat) : (s.setEvent p b).unraised = s.unraised := by
  simp only [State.setEvent, State.setReg_unraised, State.addReg_unraised]

theorem State.flushFold_unraised (l : List Rec) (s : State) (k : List Rec) :
    (l.foldl (fun (acc : State × List Rec) r =>
      if acc.1.ringReady r.queue then (acc.1.writeRec r, acc.2) else (acc.1, acc.2 ++ [r])) (s, k)).1.unraised = s.unraised := by
  induction l generalizing s k with
  | nil => rfl
  | cons r t ih =>
    simp only [List.foldl_cons]
    split
    · rw [ih, State.writeRec_unraised]
    · rw [ih]

@[simp] theorem State.flushRecs_unraised (s : State) : s.flushRecs.unraised = s.unraised := by
  simp only [State.flushRecs, State.setEvtSeq_unraised, State.withHeld_unraised, State.flushFold_unraised]

@[simp] theorem State.queueEvent_unraised (s : State) (p b : Nat) : (s.queueEvent p b).1.unraised = s.unraised := by
  simp only [State.queueEvent]
  split <;> simp only [State.setEvtSeq_unraised, State.addReg_unraised, State.flushRecs_unraised, State.withHeld_unraised,
    State.nextDseq_unraised]

@[simp] theorem State.reportEvent_unraised (s : State) (p b : Nat) : (s.reportEvent p b).unraised = s.unraised := by
  simp only [State.reportEvent]
  repeat' split
  all_goals simp

@[simp] theorem State.raise0_unraised (s : State) (p b : Nat) : (s.raise0 p b).unraised = s.unraised := by simp [State.raise0]

@[simp] theorem State.setJob_unraised (s : State) (j : Nat) : (s.setJob j).unraised = s.unraised := by
  simp only [State.setJob]; split <;> simp

@[simp] theorem State.selfRefresh_unraised (s : State) : s.selfRefresh.unraised = s.unraised := by
  unfold State.selfRefresh
  apply foldl_keep State.unraised
  intro s i
  dsimp only
  split <;> simp only [State.setStack_unraised, State.setRf_unraised]

/-- A freeze writes registers, takes the controllers into self-refresh, asks for ramps down and drives SHUTTER_N; nothing else of
the node changes (R466). -/
@[simp] theorem State.freeze_unraised (s : State) (kind trig scope origin seq symKind : Nat) (inPort : Option Nat) :
    (s.freeze kind trig scope origin seq symKind inPort).unraised = s.unraised := by
  have e : ∀ (l : List Nat) (t : State), (l.foldl (fun s p => State.emit s (.frz p scope symKind origin seq)) t).unraised = t.unraised :=
    fun l t => foldl_keep State.unraised _ (fun _ _ => State.emit_unraised _ _) l t
  have p : ∀ (l : List Nat) (t : State), (l.foldl (fun s i =>
      State.rampDown s i (s.floorDemand i)) t).unraised = t.unraised :=
    fun l t => foldl_keep State.unraised _ (fun _ _ => State.rampDown_unraised _ _ _) l t
  have b : ∀ t : State, ({ t with board := { t.board with shutter := true } } : State).unraised = t.unraised := fun _ => by
    unfold State.unraised; rfl
  unfold State.freeze
  dsimp only
  split_ifs <;> simp only [State.raise0_unraised, State.setJob_unraised, State.setRf_unraised, State.draw_unraised,
    State.selfRefresh_unraised, State.setReg_unraised, e, p, b]

@[simp] theorem State.freezeHere_unraised (s : State) (kind trig scope : Nat) :
    (s.freezeHere kind trig scope).unraised = s.unraised := by
  simp only [State.freezeHere, State.freeze_unraised, State.withShut_unraised]

@[simp] theorem State.trigFire_unraised (s : State) : s.trigFire.unraised = s.unraised := by
  simp only [State.trigFire, State.freezeHere_unraised, State.withShut_unraised]

/-- Raising an event changes nothing but registers, records, outputs and what a trigger's freeze changes. -/
@[simp] theorem State.raise_unraised (s : State) (p b : Nat) : (s.raise p b).unraised = s.unraised := by
  simp only [State.raise]; split <;> simp

@[simp] theorem State.raiseIf_unraised (s : State) (c : Bool) (p b : Nat) : (s.raiseIf c p b).unraised = s.unraised := by
  simp only [State.raiseIf]; split <;> simp

@[simp] theorem State.raiseAll_unraised (s : State) (p : Nat) (l : List Nat) : (s.raiseAll p l).unraised = s.unraised :=
  foldl_keep State.unraised _ (fun s b => State.raise_unraised s p b) l s

@[simp] theorem State.contained_unraised (s : State) : s.contained.unraised = s.unraised := by simp [State.contained]

/-! ## What that says of each part of the state -/

theorem State.unraised_queues (s : State) : s.unraised.hcq.queues = s.hcq.queues := by unfold State.unraised; rfl
theorem State.queues_of_unraised {s t : State} (h : t.unraised = s.unraised) : t.hcq.queues = s.hcq.queues := by
  rw [← State.unraised_queues t, h, State.unraised_queues]
theorem State.unraised_mem (s : State) : s.unraised.mem = s.mem := by unfold State.unraised; rfl
theorem State.mem_of_unraised {s t : State} (h : t.unraised = s.unraised) : t.mem = s.mem := by
  rw [← State.unraised_mem t, h, State.unraised_mem]
theorem State.unraised_cores (s : State) : s.unraised.cores = s.cores := by unfold State.unraised; rfl
theorem State.cores_of_unraised {s t : State} (h : t.unraised = s.unraised) : t.cores = s.cores := by
  rw [← State.unraised_cores t, h, State.unraised_cores]
theorem State.unraised_arrs (s : State) : s.unraised.arrs = s.arrs := by unfold State.unraised; rfl
theorem State.arrs_of_unraised {s t : State} (h : t.unraised = s.unraised) : t.arrs = s.arrs := by
  rw [← State.unraised_arrs t, h, State.unraised_arrs]
theorem State.unraised_sync (s : State) : s.unraised.sync = s.sync := by unfold State.unraised; rfl
theorem State.sync_of_unraised {s t : State} (h : t.unraised = s.unraised) : t.sync = s.sync := by
  rw [← State.unraised_sync t, h, State.unraised_sync]
theorem State.unraised_txn (s : State) : s.unraised.txn = s.txn := by unfold State.unraised; rfl
theorem State.txn_of_unraised {s t : State} (h : t.unraised = s.unraised) : t.txn = s.txn := by
  rw [← State.unraised_txn t, h, State.unraised_txn]
theorem State.unraised_link (s : State) : s.unraised.link = s.link := by unfold State.unraised; rfl
theorem State.link_of_unraised {s t : State} (h : t.unraised = s.unraised) : t.link = s.link := by
  rw [← State.unraised_link t, h, State.unraised_link]
theorem State.unraised_coll (s : State) : s.unraised.coll = s.coll := by unfold State.unraised; rfl
theorem State.coll_of_unraised {s t : State} (h : t.unraised = s.unraised) : t.coll = s.coll := by
  rw [← State.unraised_coll t, h, State.unraised_coll]
theorem State.unraised_step (s : State) : s.unraised.step = s.step := by unfold State.unraised; rfl
theorem State.step_of_unraised {s t : State} (h : t.unraised = s.unraised) : t.step = s.step := by
  rw [← State.unraised_step t, h, State.unraised_step]
theorem State.unraised_qps (s : State) : s.unraised.qps = s.qps := by unfold State.unraised; rfl
theorem State.qps_of_unraised {s t : State} (h : t.unraised = s.unraised) : t.qps = s.qps := by
  rw [← State.unraised_qps t, h, State.unraised_qps]
theorem State.unraised_stopped (s : State) : s.unraised.pwr.stopped = s.pwr.stopped := by unfold State.unraised; rfl
theorem State.stopped_of_unraised {s t : State} (h : t.unraised = s.unraised) : t.pwr.stopped = s.pwr.stopped := by
  rw [← State.unraised_stopped t, h, State.unraised_stopped]
theorem State.unraised_xings (s : State) : s.unraised.xings = s.xings := by unfold State.unraised; rfl
theorem State.xings_of_unraised {s t : State} (h : t.unraised = s.unraised) : t.xings = s.xings := by
  rw [← State.unraised_xings t, h, State.unraised_xings]
theorem State.unraised_thm (s : State) : s.unraised.thm = s.thm := by unfold State.unraised; rfl
theorem State.thm_of_unraised {s t : State} (h : t.unraised = s.unraised) : t.thm = s.thm := by
  rw [← State.unraised_thm t, h, State.unraised_thm]
theorem State.unraised_sec (s : State) : s.unraised.sec = s.sec := by unfold State.unraised; rfl
theorem State.sec_of_unraised {s t : State} (h : t.unraised = s.unraised) : t.sec = s.sec := by
  rw [← State.unraised_sec t, h, State.unraised_sec]
theorem State.unraised_boot (s : State) : s.unraised.boot = s.boot := by unfold State.unraised; rfl
theorem State.boot_of_unraised {s t : State} (h : t.unraised = s.unraised) : t.boot = s.boot := by
  rw [← State.unraised_boot t, h, State.unraised_boot]
theorem State.unraised_inj (s : State) : s.unraised.inj = s.inj := by unfold State.unraised; rfl
theorem State.inj_of_unraised {s t : State} (h : t.unraised = s.unraised) : t.inj = s.inj := by
  rw [← State.unraised_inj t, h, State.unraised_inj]
theorem State.unraised_pending (s : State) : s.unraised.pending = s.pending := by unfold State.unraised; rfl
theorem State.pending_of_unraised {s t : State} (h : t.unraised = s.unraised) : t.pending = s.pending := by
  rw [← State.unraised_pending t, h, State.unraised_pending]
theorem State.unraised_pwrgood (s : State) : s.unraised.board.pwrgood = s.board.pwrgood := by unfold State.unraised; rfl
theorem State.pwrgood_of_unraised {s t : State} (h : t.unraised = s.unraised) : t.board.pwrgood = s.board.pwrgood := by
  rw [← State.unraised_pwrgood t, h, State.unraised_pwrgood]
theorem State.unraised_alert (s : State) : s.unraised.board.alert = s.board.alert := by unfold State.unraised; rfl
theorem State.alert_of_unraised {s t : State} (h : t.unraised = s.unraised) : t.board.alert = s.board.alert := by
  rw [← State.unraised_alert t, h, State.unraised_alert]
theorem State.unraised_vstby (s : State) : s.unraised.board.vstby = s.board.vstby := by unfold State.unraised; rfl
theorem State.vstby_of_unraised {s t : State} (h : t.unraised = s.unraised) : t.board.vstby = s.board.vstby := by
  rw [← State.unraised_vstby t, h, State.unraised_vstby]
theorem State.unraised_thermtrip (s : State) : s.unraised.board.thermtrip = s.board.thermtrip := by unfold State.unraised; rfl
theorem State.thermtrip_of_unraised {s t : State} (h : t.unraised = s.unraised) : t.board.thermtrip = s.board.thermtrip := by
  rw [← State.unraised_thermtrip t, h, State.unraised_thermtrip]

end Sys2Proof.Machine
end

