-- ==== Sys2Proof/Laws/Raise.lean ====
section
/-! SUPPORT. Which registers raising an event leaves as they are (R65, R466). -/

namespace Sys2Proof.Machine

variable {p o : Nat}

/-- A register that events may write is not one that they leave as it is. -/
theorem eventReg_ne {p' o' : Nat} (h : Safety.EventReg p o = false) (h' : Safety.EventReg p' o' = true) (ho : o < 4096) (ho' : o' < 4096) :
    regKey p o ≠ regKey p' o' := by
  rw [Ne, regKey_inj ho ho']; rintro ⟨rfl, rfl⟩; rw [h] at h'; cases h'

/-- The reading of one register, which no proof below unfolds. -/
@[irreducible] def State.regAt (p o : Nat) (s : State) : Word := s.reg p o

theorem State.regAt_eq (s : State) : State.regAt p o s = s.reg p o := by unfold State.regAt; rfl

theorem State.setReg_at (s : State) {p' o' : Nat} (v : Word) (h : regKey p o ≠ regKey p' o') :
    State.regAt p o (s.setReg p' o' v) = State.regAt p o s := by
  rw [State.regAt_eq, State.regAt_eq, State.reg_setReg_ne _ _ h]
theorem State.withHcq_at (s : State) (h : HcqSt) : State.regAt p o { s with hcq := h } = State.regAt p o s := by
  unfold State.regAt; rfl
theorem State.withShut_at (s : State) (h : ShutSt) : State.regAt p o { s with shut := h } = State.regAt p o s := by
  unfold State.regAt; rfl
theorem State.withBoard_at (s : State) (h : Board) : State.regAt p o { s with board := h } = State.regAt p o s := by
  unfold State.regAt; rfl
theorem State.emit_at (s : State) (x : Out) : State.regAt p o (s.emit x) = State.regAt p o s := by
  unfold State.regAt; rfl
theorem State.draw_at (s : State) : State.regAt p o s.draw.2 = State.regAt p o s := by
  unfold State.regAt; rfl
theorem State.setStack_at (s : State) (i : Nat) (v : Stack) : State.regAt p o (s.setStack i v) = State.regAt p o s := by
  unfold State.regAt; rfl

theorem State.withPwr_at (s : State) (w : PwrSt) : State.regAt p o { s with pwr := w } = State.regAt p o s := by
  unfold State.regAt; rfl
theorem State.setIsland_at (s : State) (i : Nat) (v : Island) : State.regAt p o (s.setIsland i v) = State.regAt p o s := by
  unfold State.regAt; rfl

/-- Asking for a ramp writes no register. -/
theorem State.requestRamp_at (s : State) (i v : Nat) : State.regAt p o (s.requestRamp i v) = State.regAt p o s := by
  simp only [State.requestRamp]; split <;> simp only [State.withPwr_at, State.setIsland_at]

theorem State.rampDown_at (s : State) (i v : Nat) : State.regAt p o (s.rampDown i v) = State.regAt p o s := by
  simp only [State.rampDown]; split <;> simp only [State.requestRamp_at]

theorem State.setReg_keep (h : Safety.EventReg p o = false) (ho : o < 4096) (s : State) {p' o' : Nat} (h' : Safety.EventReg p' o' = true)
    (ho' : o' < 4096) (v : Word) : State.regAt p o (s.setReg p' o' v) = State.regAt p o s :=
  State.setReg_at _ _ (eventReg_ne h h' ho ho')

theorem ringOff_lt (q : Option Nat) : (ringOff q).2.2.2 < 4096 := by
  cases q with
  | none => decide
  | some q => simp only [ringOff, qOff]; omega

theorem ringOff_event (q : Option Nat) : Safety.EventReg pCFE (ringOff q).2.2.2 = true := by
  cases q with
  | none => decide
  | some q => simp only [ringOff, qOff, Safety.EventReg, pCFE]; simp; omega

theorem eventReg_eth {p : Nat} (h : p < 4) : Safety.EventReg (pETH p) 0x120 = true := by simp [Safety.EventReg, pETH]; omega

theorem eventReg_status (p : Nat) : Safety.EventReg p 0x030 = true := by simp [Safety.EventReg]

theorem eventReg_count (p : Nat) : Safety.EventReg p 0x038 = true := by simp [Safety.EventReg]

theorem State.setEvent_keep (h : Safety.EventReg p o = false) (ho : o < 4096) (s : State) (page bit : Nat) :
    State.regAt p o (s.setEvent page bit) = State.regAt p o s := by
  unfold State.setEvent State.addReg
  rw [State.setReg_keep h ho _ (eventReg_count _) (by decide), State.setReg_keep h ho _ (eventReg_status _) (by decide)]

theorem State.setEvtSeq_keep (h : Safety.EventReg p o = false) (ho : o < 4096) (s : State) :
    State.regAt p o s.setEvtSeq = State.regAt p o s :=
  State.setReg_keep h ho _ (by decide) (by decide) _

theorem State.writeRec_keep (h : Safety.EventReg p o = false) (ho : o < 4096) (s : State) (r : Rec) :
    State.regAt p o (s.writeRec r) = State.regAt p o s := by
  have hp : fld (s.reg pCFE (ringOff r.queue).1) 29 28 < 4 := fld_lt _ 29 28
  simp only [State.writeRec, State.withHcq_at, State.setRf, State.addReg, State.transmit]
  rw [State.setReg_keep h ho _ (ringOff_event _) (ringOff_lt _), State.setReg_keep h ho _ (eventReg_eth hp) (by decide), State.emit_at, State.emit_at]

theorem State.flushFold_keep (h : Safety.EventReg p o = false) (ho : o < 4096) (l : List Rec) (s : State) (k : List Rec) :
    State.regAt p o (l.foldl (fun (acc : State × List Rec) r =>
      if acc.1.ringReady r.queue then (acc.1.writeRec r, acc.2) else (acc.1, acc.2 ++ [r])) (s, k)).1 = State.regAt p o s := by
  induction l generalizing s k with
  | nil => rfl
  | cons r t ih =>
    simp only [List.foldl_cons]
    split
    · rw [ih, State.writeRec_keep h ho]
    · rw [ih]

theorem State.flushRecs_keep (h : Safety.EventReg p o = false) (ho : o < 4096) (s : State) :
    State.regAt p o s.flushRecs = State.regAt p o s := by
  simp only [State.flushRecs]
  rw [State.setEvtSeq_keep h ho, State.withHcq_at, State.flushFold_keep h ho]

theorem State.nextDseq_keep (h : Safety.EventReg p o = false) (ho : o < 4096) (s : State) :
    State.regAt p o s.nextDseq.2 = State.regAt p o s :=
  State.setReg_keep h ho _ (by decide) (by decide) _

theorem State.queueEvent_keep (h : Safety.EventReg p o = false) (ho : o < 4096) (s : State) (page bit : Nat) :
    State.regAt p o (s.queueEvent page bit).1 = State.regAt p o s := by
  simp only [State.queueEvent]
  split
  · dsimp only; rw [State.setEvtSeq_keep h ho, State.addReg, State.setReg_keep h ho _ (by decide) (by decide), State.nextDseq_keep h ho]
  · dsimp only; rw [State.flushRecs_keep h ho, State.withHcq_at, State.nextDseq_keep h ho]

theorem State.reportEvent_keep (h : Safety.EventReg p o = false) (ho : o < 4096) (s : State) (page bit : Nat) :
    State.regAt p o (s.reportEvent page bit) = State.regAt p o s := by
  simp only [State.reportEvent]
  repeat' split
  all_goals simp only [State.queueEvent_keep h ho, State.setEvent_keep h ho]

theorem State.raise0_at (h : Safety.EventReg p o = false) (ho : o < 4096) (s : State) (page bit : Nat) :
    State.regAt p o (s.raise0 page bit) = State.regAt p o s := by
  rw [State.raise0, State.reportEvent_keep h ho, State.setEvent_keep h ho]

theorem State.setJob_keep (h : Safety.EventReg p o = false) (ho : o < 4096) (s : State) (j : Nat) :
    State.regAt p o (s.setJob j) = State.regAt p o s := by
  simp only [State.setJob]; split
  · rfl
  · rw [State.raise0_at h ho, State.setRf, State.setReg_keep h ho _ (by decide) (by decide)]

/-- A fold whose every step, at the elements it goes over, leaves a reading alone. -/
theorem foldl_keep_mem {β γ : Type} (g : State → γ) (f : State → β → State) (l : List β)
    (h : ∀ s, ∀ b ∈ l, g (f s b) = g s) (s : State) : g (l.foldl f s) = g s := by
  induction l generalizing s with
  | nil => rfl
  | cons b r ih =>
    rw [List.foldl_cons, ih (fun s c m => h s c (List.mem_cons_of_mem _ m)), h s b (List.mem_cons_self ..)]

theorem State.selfRefresh_keep (h : Safety.EventReg p o = false) (ho : o < 4096) (s : State) :
    State.regAt p o s.selfRefresh = State.regAt p o s := by
  unfold State.selfRefresh
  apply foldl_keep_mem (State.regAt p o)
  intro s i hi
  have := List.mem_range.1 hi
  have e : Safety.EventReg (pMEM i) 0x140 = true := by simp [Safety.EventReg, pMEM]; omega
  dsimp only
  split
  · exact State.setStack_at ..
  · rw [State.setRf, State.setReg_keep h ho _ e (by decide), State.setStack_at]

/-- A freeze writes no register but those of `Safety.EventReg`. -/
theorem State.freeze_keep (h : Safety.EventReg p o = false) (ho : o < 4096) (s : State) (kind trig scope origin seq symKind : Nat)
    (inPort : Option Nat) : State.regAt p o (s.freeze kind trig scope origin seq symKind inPort) = State.regAt p o s := by
  have q : ∀ (l : List Nat) (t : State), State.regAt p o (l.foldl (fun s p => State.emit s (.frz p scope symKind origin seq)) t) =
      State.regAt p o t := fun l t => foldl_keep (State.regAt p o) _ (fun _ _ => State.emit_at _ _) l t
  have w : ∀ (t : State), State.regAt p o ((List.range 32).foldl (fun s i => State.rampDown s i (s.floorDemand i)) t) =
      State.regAt p o t := fun t => foldl_keep (State.regAt p o) _ (fun _ _ => State.rampDown_at _ _ _) _ t
  have b : ∀ t : State, State.regAt p o ({ t with board := { t.board with shutter := true } } : State) = State.regAt p o t :=
    fun _ => State.withBoard_at _ _
  have k : ∀ (t : State) (v : Word), State.regAt p o (t.setReg pSHT 0x110 v) = State.regAt p o t :=
    fun t v => State.setReg_keep h ho t (by decide) (by decide) v
  have k2 : ∀ (t : State) (hi lo v : Nat), State.regAt p o (t.setRf pSHT 0x128 hi lo v) = State.regAt p o t :=
    fun t _ _ _ => State.setReg_keep h ho t (by decide) (by decide) _
  have k3 : ∀ (t : State) (hi lo v : Nat), State.regAt p o (t.setRf pCFE 0x100 hi lo v) = State.regAt p o t :=
    fun t _ _ _ => State.setReg_keep h ho t (by decide) (by decide) _
  unfold State.freeze
  dsimp only
  split_ifs <;> simp only [State.raise0_at h ho, State.setJob_keep h ho, k2, k3, State.draw_at,
    State.selfRefresh_keep h ho, k, q, w, b]

theorem State.freezeHere_keep (h : Safety.EventReg p o = false) (ho : o < 4096) (s : State) (kind trig scope : Nat) :
    State.regAt p o (s.freezeHere kind trig scope) = State.regAt p o s := by
  simp only [State.freezeHere]; rw [State.freeze_keep h ho, State.withShut_at]

theorem State.raise_at (h : Safety.EventReg p o = false) (ho : o < 4096) (s : State) (page bit : Nat) :
    State.regAt p o (s.raise page bit) = State.regAt p o s := by
  simp only [State.raise]; split
  · rw [State.trigFire, State.freezeHere_keep h ho, State.withShut_at, State.raise0_at h ho]
  · exact State.raise0_at h ho ..

/-- Setting, counting and reporting an event writes no register but those of `Safety.EventReg`. -/
theorem State.raise0_keep (h : Safety.EventReg p o = false) (ho : o < 4096) (s : State) (page bit : Nat) :
    (s.raise0 page bit).reg p o = s.reg p o := by
  rw [← State.regAt_eq, State.raise0_at h ho, State.regAt_eq]

/-- Raising an event writes no register but those of `Safety.EventReg`, whatever it triggers. -/
theorem State.raise_keep (h : Safety.EventReg p o = false) (ho : o < 4096) (s : State) (page bit : Nat) :
    (s.raise page bit).reg p o = s.reg p o := by
  rw [← State.regAt_eq, State.raise_at h ho, State.regAt_eq]

/-- A freeze that this node triggers writes no register but those of `Safety.EventReg`. -/
theorem State.freezeHere_reg (h : Safety.EventReg p o = false) (ho : o < 4096) (s : State) (kind trig scope : Nat) :
    (s.freezeHere kind trig scope).reg p o = s.reg p o := by
  rw [← State.regAt_eq, State.freezeHere_keep h ho, State.regAt_eq]

end Sys2Proof.Machine
end

