-- ==== Sys2Proof/Tests/Slice0.lean ====
section
/-! SUPPORT. Tests: which commands are ill-formed, and for every statement that has hypotheses a state and operands
that meet them, each clause on its own. -/

namespace Sys2Proof.Tests

open Sys2Proof.Machine

/-! ## States -/

/-- A package at stage 3, powered, nothing enabled and no job, its memory written with zeros. -/
def up : State := { State.reset with
  mem := { cells := [], poison := [], undef := [] }
  board := { State.reset.board with
    pwrgood := true
    vstby := true }
  boot := { State.reset.boot with
    stage := 3
    strapped := true
    mscUp := true } }

/-- `up` with a debug freeze. -/
def frozen : State := up.setReg pSHT 0x110 (BitVec.ofNat 64 (2 ^ 63 + 1))

/-- `up` with context 0 of core 0 running and its job RUNNING. -/
def running : State := ((up.setRf (pCOR 0) (corOff 0 0x00) 2 0 1).setRf pCFE 0x100 2 0 2).setRf (pPWR 0) 0x110 15 0 60000

/-- A descriptor with one word. -/
def word0 (w : Nat) : Desc := { w0 := BitVec.ofNat 64 w }

/-- An instruction of context 0 of core 0. -/
def issue (d : Desc) : Issue := { core := 0, ctx := 0, npc := 0x40, desc := d }

/-- A decoded instruction of a class at its context. -/
def ins (cls : Nat) (d : Desc) : Ins :=
  { seq := 0, pc := 0, cls := cls, op := fld d.w0 7 0, desc := d, epoch := 0, txn := none, lines := [] }

/-- Context 0 of core 0 of `running` changed. -/
def withCtx (f : Ctx → Ctx) : State := running.setCtx 0 0 (f (running.ctx 0 0))

/-- Core 0 of `running` changed. -/
def withCore (f : Core → Core) : State := running.setCore 0 (f (running.core 0))

/-- A packet of a type with so many bytes of payload. -/
def pkt (type n : Nat) : Packet := { w0 := BitVec.ofNat 64 type, w1 := 0, w2 := 0, w3 := 0, payload := List.replicate n 0 }

/-- `up` with torus port 0 in a state of training or UP. -/
def port0 (st : Nat) (k : Port) : State := (up.setRf (pTOR 0) 0x108 2 0 st).setPort 0 k

/-- A step refuses its command as ill-formed. -/
def isIll (r : Host.Outcome State Fault Refusal) : Bool := match r with
  | .refused .illFormed => true
  | _ => false

/-- A step answers a next state. -/
def isNext (r : Host.Outcome State Fault Refusal) : Bool := match r with
  | .next _ => true
  | _ => false

/-! ## Ill-formed commands are refused -/

theorem test_illFormed_opcode : opOk matGap 0x10 (word0 0x20) = false ∧
    isIll (execMatrixInstruction (issue (word0 0x20)) running) = true := by decide

theorem test_illFormed_collective : collOk 0 (word0 (0x70 + 2 ^ 24)) = false ∧
    isIll (execAllreduce (issue (word0 (0x70 + 2 ^ 24))) running) = true := by decide

theorem test_illFormed_packet : pktOk 0x02 0 0 (pkt 0x02 64) = false ∧ isIll (execRd (pkt 0x02 64) up) = true := by decide

theorem test_illFormed_pace : isIll (execPaceWindow [] up) = true := by decide

theorem test_noWordSpellsACommand : decodeTableWord 64 0 = none ∧ (up.withFetchWord 64 0) = up := by decide

/-! ## Control pages -/

theorem wit_frontCommand : ∃ (s : State) (r : List Instr), s.pending = .vstbyGood :: r :=
  ⟨{ up with pending := [.vstbyGood, .powerGood] }, [.powerGood], by decide⟩

theorem wit_idle : up.pending = [] := by decide

theorem wit_canonical : Regs.wf running.regs = true ∧ Memory.wf running.mem = true ∧ Tables.wf running = true := by decide

theorem wit_registerRows : up.reaches .host = true ∧ running.reaches (.program 0 0) = true ∧ bitAt (0 : Word) 0 = false := by decide

theorem wit_reserved : classify (pCFE) = some (.cfe, 0) ∧ findReg .cfe 0 0x0F8 = none ∧ findReg .cfe 0 0x3F8 = none ∧
    up.pagePowered pCFE = true := by decide

theorem wit_refusedWrite : (classify pCFE).isSome = true ∧ up.pageCode pCFE 0x018 = none ∧
    (up.serveWrite pCFE 0x018 0).1 = cLOCKED := by decide

theorem wit_enableCheck : classify pSHT = some (.sht, 0) ∧ 2 ≤ Cls.enableKind .sht ∧ up.enabled pSHT = false ∧
    up.enableCheck .sht 0 pSHT = none ∧ frozen.enableCheck .sht 0 pSHT ≠ none := by decide

theorem wit_disable : classify (pTOR 0) = some (.tor, 0) ∧ Cls.enableKind .tor = 2 ∧ Cls.enableKind .dir = 0 ∧
    Cls.enableKind .cfe = 1 ∧ classify (pMEM 19) = some (.mem, 19) ∧ Cls.enableKind .mem = 2 ∧ running.jobBusy = true ∧
    up.jobBusy = false ∧ (up.setReg pSHT 0x018 1).enabled pSHT = true := by decide
/-- MEM[0] with a one-shot (1) or a periodic (2) injection of point 1 armed. -/
def armed (mode : Nat) : State := (up.setReg (pMEM 0) 0x048 (BitVec.ofNat 64 (mode + 2 ^ 8 + 3 * 2 ^ 16))).setReg (pMEM 0) 0x050 1

theorem wit_inject : classify (pMEM 0) = some (.mem, 0) ∧ (findReg .mem 0 0x048).isSome = true ∧
    fld (3 : Word) 1 0 = 3 ∧ injectPoint .mem 0 (fld (0x501 : Word) 15 8) = false ∧
    (fld (0x101 : Word) 1 0 = 1 ∧ injectPoint .mem 0 (fld (0x101 : Word) 15 8) = true ∧ bitAt (up.reg (pRAS 0) 0x100) 0 = false) ∧
    fld (0 : Word) 1 0 = 0 ∧ (armed 1).rf (pMEM 0) 0x048 1 0 = 1 ∧ bitAt ((armed 1).reg (pMEM 0) 0x050) 0 = true := by decide

theorem wit_injectionFires : up.rf (pMEM 0) 0x048 15 8 ≠ 1 ∧ (armed 1).rf (pMEM 0) 0x048 15 8 = 1 ∧
    (armed 2).rf (pMEM 0) 0x048 1 0 = 2 ∧ bitAt ((armed 2).reg (pMEM 0) 0x050) 0 = true := by decide

theorem wit_event : pMEM 0 ≠ pCFE ∧ pMEM 0 ≠ pSHT ∧ Safety.EventReg (pMEM 0) 0x100 = false ∧
    Safety.EventReg (pMEM 0) 0x030 = true := by decide

theorem wit_eventRegisters : (findReg .mem 0 0x030).isSome = true ∧ (findReg .mem 0 0x040).isSome = true ∧
    up.reg (pMEM 0) 0x030 &&& up.reg (pMEM 0) 0x040 &&& ~~~(0 : Word) = 0 := by decide

/-! ## Synchronisation -/

theorem wit_tally : up.orphaned 147 0 8191 = false ∧ up.orphaned 0 0 127 = false ∧ up.jobBusy = false ∧ (up.synSel 0).1 = 0 := by
  decide

/-- Two takers of a pool, the second of which its value does not cover. -/
def takers : List Waiter := [⟨0, 0, 0, 0, 1, 3, true⟩, ⟨0, 1, 0, 0, 2, 3, true⟩]

theorem wit_pool : (servePool 5 takers).2.1.length = 1 ∧ (servePool 5 takers).2.2.length = 1 ∧ (servePool 5 takers).1 = 2 := by
  decide

/-- A wake for context 0 of core 0. -/
def wakeMsg : WakeMsg := { core := 0, ctx := 0, tag := 7, status := 0 }

/-- A request of core 0 at die 0. -/
def syncReq : SyncReq := { die := 0, op := 0x50, kind := 0, index := 0, amount := 1, rel := false, waits := false, node := 0, core := 0,
                           ctx := 0, epoch := 0, tag := 0, pc := 0, step := 0, slot := 0 }

/-- A cancel of that context. -/
def cancelMsg : CancelMsg := { node := 0, core := 0, ctx := 0, epoch := 0, tag := 7, addr := 0 }

/-- A timed TWAIT that context 0 of core 0 waits on. -/
def waiting : State := withCtx (fun c => { c with wait := some ⟨7, ins 4 (word0 0x51), none, 0, true, false⟩ })

theorem wit_syncRows :
    (up.live = true ∧ ({ up with sync := { up.sync with reqs := [syncReq] } } : State).nextReq 0 = some syncReq) ∧
    wakeMsg ∈ ({ up with sync := { up.sync with wakes := [wakeMsg] } } : State).sync.wakes ∧
    (wakeMsg ∉ up.sync.wakes ∧ (({ up with link := { up.link with arrivals := [
      (1, { w0 := 0x0C, w1 := 0, w2 := 0, w3 := 0, payload := [] })] } } : State).wakePacket { wakeMsg with tag := 0 }).isSome = true) ∧
    (((0 : Fin 4).val, cancelMsg) ∈ [(0, cancelMsg)] ∧ up.sync.reqs.all (fun _ => false) = true) ∧
    ((waiting.ctx 0 0).wait.isSome = true ∧ waiting.ctxState 0 0 = 1 ∧
      ((waiting.ctx 0 0).wait.map (fun w => w.isWait)) = some true) ∧
    [(⟨0, 0, 0, 0, 0, 0⟩ : Signal)].find? (fun g => g.core == 0) = some ⟨0, 0, 0, 0, 0, 0⟩ := by decide

theorem wit_syncPacket : pktOk 0x04 1 1 (pkt 0x04 64) = true ∧ up.live = true := by decide

theorem wit_synHost : up.hostReach = true ∧ up.pageCode (pSYN 147) 0x178 = none ∧ (up.fixedRun && up.job == 2) = false ∧
    (8191 : Fin 8192).val < objCount 147 0 ∧ 127 < objCount 0 0 ∧ up.orphaned 147 0 8191 = false ∧
    2047 < objCount 147 1 ∧ up.orphaned 147 1 2047 = false ∧ (up.obj 147 1 2047).value + 1 < 2 ^ 31 ∧
    up.pageCode (pSYN 147) 0x100 = none ∧ fld (8191 : Word) 12 0 < objCount 147 (fld (8191 : Word) 13 13) ∧
    up.pageCode (pSYN 147) 0x108 = none ∧ up.jobBusy = false ∧ (up.synSel 147).1 = 0 ∧
    ((up.setReg (pSYN 147) 0x100 8192).synSel 147).1 = 1 := by decide
/-! ## Instructions and their engines -/

/-- One pass of an int8 tile of one row on array 0 (R118, R135). -/
def dMx : Desc := { w0 := BitVec.ofNat 64 (0x10 + 2 ^ 32 + 2 ^ 36), w1 := BitVec.ofNat 64 (64 * 2 ^ 32), w3 := BitVec.ofNat 64 (128 * 2 ^ 32) }
/-- A QUANT of one float to one int8 element (R175). -/
def dQnt : Desc := { w0 := 0x20, w1 := BitVec.ofNat 64 (7 * 2 ^ 48), w5 := BitVec.ofNat 64 (2 ^ 32) }
/-- A VADD of one element in plain form. -/
def dVec : Desc := word0 0x30
/-- A DCOPY of 64 bytes within HBM. -/
def dDma : Desc := { w0 := 0x80, w2 := 0x1000, w3 := 64 }
/-- A TSIG of 1. -/
def dSig : Desc := { w0 := 0x50, w2 := 1 }

/-- A context whose next instruction of a class is `d`, with the first lines of its core store resident. -/
def atHead (cls : Nat) (d : Desc) (lines : Nat) : State :=
  let t := (withCtx (fun c => { c with queue := [ins cls d] })).setReg (pMXA 0 0) 0x018 1
  t.setCore 0 { t.core 0 with resident := List.range lines }

theorem wit_decodes : fld dSig.w0 7 0 = 0x50 ∧ running.canDecode 0 0 4 = true ∧ (running.inject (pCOR 0) 2).1 = false ∧
    running.syncRefusal 0 0 dSig = none := by decide

theorem wit_mxQntDecode : fld dMx.w0 7 0 = 0x10 ∧ (atHead 0 dMx 0).canDecode 0 0 0 = true ∧
    ((atHead 0 dMx 0).ctx 0 0).head 0 ≠ none ∧ ((atHead 1 dVec 0).ctx 0 0).head 0 = none ∧
    (atHead 1 dVec 0).mxRefusal 0 0 dMx = none ∧ (atHead 2 dQnt 0).canDecode 0 0 2 = true ∧
    ((atHead 2 dQnt 0).ctx 0 0).head 2 ≠ none ∧ running.qntRefusal 0 0 dQnt = none := by decide

theorem wit_runRelease : (atHead 0 dMx 256).ready 0 0 0 = some (ins 0 dMx) ∧ (atHead 0 dMx 256).mxRefusal 0 0 dMx = none ∧
    ∃ m, mxOf dMx = some m ∧ ((atHead 0 dMx 256).mxWait 0 0 m).1 = 0 ∧ (atHead 0 dMx 256).fitsMany 0 18 m.arrays.length = true ∧
      ((atHead 0 dMx 256).inject (pCOR 0) 1).1 = false ∧ ((atHead 0 dMx 256).inject (pCOR 0) 1).2.mxTileRefusal 0 m = none :=
  ⟨by decide, by decide, _, rfl, by decide, by decide, by decide, by decide⟩

/-- `running` with the matrix run `d` in flight. -/
def inFlight (pins : List Pin) : State :=
  let t := withCtx (fun c => { c with fly := [ins 0 dMx] })
  t.setCore 0 { t.core 0 with pins := pins }

set_option maxRecDepth 20000 in
theorem wit_runEnd : (inFlight []).live = true ∧ ((inFlight []).mxFly 0 0).isSome = true ∧
    ((inFlight []).mxFly 0 0).map (fun f => ((inFlight []).asLoaded 0 0).mxFirstBad 0 f.2) = some none ∧
    ((inFlight [⟨0, 0, 0, true⟩]).core 0).pins.any (fun p => p.ctx == 0 && p.stationary && p.seq == 0) = true := by decide

/-- `running` with a vector instruction of context 0 at the engine. -/
def vecFlies : State := withCore (fun k => { k with vec := some { ctx := 0, ins := ins 1 dVec } })

set_option maxRecDepth 20000 in
theorem wit_poisonedLine : (running.lineIn running 0 0 0).isNone = true ∧ (running.lineIn running 0 1 0).isNone = true ∧
    (let spoilt : State := { vecFlies with mem := vecFlies.mem.setPoison (storeAddr 0 0 / 64) true }
    (vecFlies.lineIn spoilt 0 0 0).isSome = true ∧ (vecFlies.lineIn spoilt 0 1 0).isNone = true) := by decide

theorem wit_qntRelease :
    let s := atHead 2 dQnt 1
    s.ready 0 0 2 = some (ins 2 dQnt) ∧ s.qntRefusal 0 0 dQnt = none ∧ (s.core 0).qnt = none ∧ s.turnOk 0 0 (s.core 0).turnQ = true ∧
    s.notReady 0 0 (ins 2 dQnt) (s.qntReads 0 dQnt) = none ∧ s.vdrainFirst 0 0 (ins 2 dQnt) = false ∧
    s.firstCome 0 0 2 (ins 2 dQnt) (s.qntMay 0) = true ∧ qDrain dQnt = false ∧
    s.qntBadRec 0 dQnt = false ∧ s.fits 0 3 = true ∧ (s.inject (pCOR 0) 1).1 = false := by decide

/-- `running` with a QUANT at the quantiser. -/
def quantising (sent : Bool) : State := withCore (fun k => { k with qnt := some { ctx := 0, ins := ins 2 dQnt, sent := sent } })

theorem wit_qntComplete :
    ((quantising true).core 0).qnt = some { ctx := 0, ins := ins 2 dQnt, sent := true } ∧
    (let s := quantising false
    ∃ o, qDst dQnt (s.qGeom 0 dQnt) = some o ∧ s.qntFirstBad 0 dQnt = none ∧
      s.pinnedByOther 0 0 0 (writtenLines (qntOut dQnt o (s.qntLoads 0 dQnt).1).writes) = false ∧
      (qCensus dQnt && s.censusWaits 0 dQnt) = false) :=
  ⟨by decide, _, rfl, by decide, by decide, by decide⟩

theorem wit_vecDecode : fld dVec.w0 7 0 = 0x30 ∧ running.canDecode 0 0 1 = true ∧ running.vecRefusal 0 0 dVec = none ∧
    ((atHead 1 dVec 0).ctx 0 0).head 1 ≠ none := by decide

theorem wit_vecRelease :
    let s := atHead 1 dVec 1
    s.ready 0 0 1 = some (ins 1 dVec) ∧ s.vecRefusal 0 0 dVec = none ∧ (s.core 0).vec = none ∧ s.turnOk 0 0 (s.core 0).turnV = true ∧
    s.notReady 0 0 (ins 1 dVec) (vReads dVec) = none ∧ s.qdrainFirst 0 0 (ins 1 dVec) = false ∧
    s.firstCome 0 0 1 (ins 1 dVec) (s.vecMay 0) = true ∧ opOf dVec ≠ 0x41 ∧
    s.vecReadRefusal 0 dVec = none ∧ s.fits 0 10 = true ∧ (s.inject (pCOR 0) 1).1 = false := by decide

theorem wit_vecComplete :
    let s := withCore (fun k => { k with vec := some { ctx := 0, ins := ins 1 dVec } })
    (s.core 0).vec = some { ctx := 0, ins := ins 1 dVec } ∧ s.vecFirstBad 0 dVec = none ∧
    s.pinnedByOther 0 0 0 (writtenLines (s.vecWork 0 dVec 0).1.writes) = false := by decide

theorem wit_dmaDecode : fld dDma.w0 7 0 = 0x80 ∧ running.canDecode 0 0 3 = true ∧ running.dmaRefusal 0 0 dDma = none := by decide

/-- `running` with a copy between LLC scratch addresses, or HBM ones, at the DMA engine. -/
def copying (j : DmaJob) : State := withCore (fun k => { k with dma := [j] })
/-- A copy job of 64 bytes from HBM to HBM. -/
def job : DmaJob := { ctx := 0, ins := ins 3 dDma }

set_option maxRecDepth 20000 in
theorem wit_dmaRows :
    ((copying job).core 0).inFlight + (copying job).pieceReqs job ≤ 4096 ∧
    ((copying job).core 0).dma.find? (fun j => j.ctx == 0 && (!j.issued || j.parked != [])) = some job ∧
    ((copying job).dmaIssue 0 job).isSome = true ∧
    (running.core 0).dma.find? (fun j => j.ctx == 0 && (!j.issued || j.parked != [])) = none ∧
    (atHead 3 dDma 0).pieceReqs { ctx := 0, ins := ins 3 dDma } ≤ 4096 ∧ ((atHead 3 dDma 0).dmaNext 0 0).isSome = true ∧
    (atHead 3 dDma 0).fits 0 0 = true ∧
    (((atHead 3 dDma 0).takeDma 0 0 (ins 3 dDma)).dmaIssue 0 { ctx := 0, ins := ins 3 dDma }).isSome = true ∧
    ((copying { job with issued := true }).core 0).dma.find? (fun j => j.ctx == 0 && j.issued && j.open_ == 0) =
      some { job with issued := true } := by decide

/-! ## Programs and memory -/

theorem wit_program : running.runs 0 0 = true ∧ running.trigArmed 1 = false ∧ (running.inject (pCOR 0) 2).1 = false ∧
    loadWidths.contains 8 = true ∧ running.inHold 0x40 = false ∧ running.closing 0x40 8 = false ∧ running.accessCode 0x40 8 true = cOK ∧
    running.accessCode 0x40 8 false = cOK ∧ (running.storeMem 0 0 0x40 (List.replicate 8 0) 0x40).isSome = true ∧
    regBase ≤ regBase + 4096 * pCFE + 0x180 ∧ running.accessCode (regBase + 4096 * pCFE + 0x180) 8 false = cOK := by decide

theorem wit_memoryWrite : Memory.wf up.mem = true ∧ (64 : Nat) ≤ 1 * 64 ∧ 1 * 64 + 64 ≤ 64 + (List.replicate 64 (0 : Byte)).length ∧
    up.neverFenced = true := by decide

theorem wit_memoryRows : up.live = true ∧ up.inHold 0xFFC0 = false ∧ up.served 0xFFC0 64 = true ∧ classOk .cfe 0 = true ∧
    up.mayFetchAt .cfe 0xFFC0 = true ∧ reqFetches .cfe = false ∧ up.aopCode 2 0xFFC0 false = cOK ∧ up.closing 0xFFC0 64 = false ∧
    reqWriter .cfe = none ∧ up.reqRegion .torus 0xFFC0 8 = cOK ∧ up.aopCode 3 0xFFC0 true = cOK ∧ up.aopCode 3 0xFFC1 false ≠ cOK := by
  decide

/-- `running` with pseudo-channel 0 of stack 0 in hold: address 0 is there. -/
def holding : State := running.setStack 0 { hold := some 0 }

theorem wit_memoryHolds : holding.inHold 0 = true ∧ reqWriter (.program 0 0) = some (0, 0) ∧
    (running.ctxWrite 0 0 none 0xFFC0 [1] false).isSome = true ∧
    (holding.holdCmd .cfe (.memoryRead .cfe 0 64 0 false .clean) 0 (some 0)).isSome = true ∧
    (holding.holdCmd .cfe (.memoryWrite .cfe 0 [1]) 0 none).isSome = true ∧
    (holding.holdCmd .cfe (.memoryAtomic .cfe 0 2 1 none true) 0 none).isSome = true := by decide

/-- A region table of one region at 0x10000, its entry at address 0 written. -/
def regions : State :=
  let t := ((up.setReg (pTXN 0) 0x018 1).setReg (pTXN 0) 0x118 1).setReg (pTXN 0) 0x110 0
  { t with boot := t.boot }

theorem wit_atomicRefused : regions.reqRegion .torus 0 8 ≠ cOK := by decide

theorem wit_frame_places : (up.stack 0).slot < 16 ∧ up.fixedOrder = false ∧
    (let s := ((running.setRf pCFE 0x180 1 0 1).setRf pCFE 0x180 5 4 1)
    s.fixedOrder = true) ∧ (0 : Nat) < (up.setReg (pMEM 0) 0x110 4).rf (pMEM 0) 0x110 3 0 := by decide

theorem wit_crossing : (∀ t ∈ (XBuf.filled.held ++ [Token.packet (pkt 4 64)]), t ≠ .idle) ∧ XBuf.filled.buf.length ≤ 16 ∧
    (15 : Nat) ≤ (List.replicate 15 Token.idle).length ∧ XBuf.filled.buf.length < 15 ∧
    packetsOf (XBuf.filled.pass [.packet (pkt 4 64)]).1 = [pkt 4 64] := by decide

theorem wit_a64 : (narWord : Word) = narWord ∧ (BitVec.ofNat 64 (2 ^ 63 - 1)).toInt = 2 ^ 63 - 1 ∧
    (BitVec.ofNat 64 (2 ^ 63 + 1)).toInt = -(2 ^ 63 - 1) ∧ (1 : Word) ≠ narWord ∧ (1 : Word).toInt ≠ 2 ^ 63 - 1 := by decide

theorem wit_hbmMap : up.hbmEnd - 1 < up.hbmEnd ∧ up.rf (pMEM 0) 0x100 1 0 = 0 ∧
    (up.setReg (pMEM 0) 0x100 1).rf (pMEM 0) 0x100 1 0 ≠ 0 ∧ up.pagePowered (pMEM 0) = true := by decide
/-! ## Controllers, transactions, collectives, steps -/

/-- `up` with the controller of stack 0 in a state. -/
def stack0 (k : Stack) : State := up.setStack 0 k

theorem wit_controllers :
    ((stack0 { wcb := [⟨0, [0], []⟩] }).leaving 0 .age).isSome = true ∧
    up.live = true ∧ bitAt ((up.setReg (pMEM 0) 0x100 0x200).reg (pMEM 0) 0x100) 9 = true ∧
    (up.stack 0).hold ≠ some 31 ∧ (up.stack 0).fenced.contains 31 = false ∧ bitAt (up.reg (pMEM 0) 0x158) 31 = false ∧
    bitAt (up.reg (pMEM 0) 0x050) 0 = false ∧ (up.inject (pMEM 0) 3).1 = false ∧ (up.inject (pMEM 0) 4).1 = false ∧
    frozen.live = false ∧ ((frozen.setStack 0 { awake := true }).stack 0).awake = true := by decide

/-- `up` with the sparing reserve. -/
def spared : State := { up with boot := { up.boot with cfg := { up.boot.cfg with reserve := true } } }

theorem wit_maintenance : up.reaches .host = true ∧ up.pageCode (pMEM 0) 0x160 = none ∧ up.pageCode (pMEM 19) 0x150 = none ∧
    spared.mayRetire 19 = true ∧ ((stack0 { retiring := some 31 }).stack 0).retiring = some 31 := by decide

theorem wit_retrain : up.pageCode (pMEM 0) 0x148 = none ∧ (up.stack 0).pend.contains 31 = false ∧
    ((stack0 { hold := some 31 }).stack 0).hold = some 31 ∧ (stack0 { hold := some 31 }).holdDrained 0 31 = true ∧ (40 : Nat) ≤ 40 ∧
    (((stack0 { hold := some 31 }).setStack 0 { (stack0 { hold := some 31 }).stack 0 with hold := none }).noteHold 0 40 |>.raise
      (pMEM 0) 1).mayRetire 0 = false ∧
    ((((spared.setStack 0 { hold := some 31 }).setStack 0 {}).noteHold 0 40).raise (pMEM 0) 1).mayRetire 0 = true ∧
    ((stack0 { pend := [31] }).stack 0).pend.contains 31 = true ∧ ((stack0 { pend := [31] }).stack 0).go.contains 31 = false ∧
    ((stack0 { fenced := [31] }).stack 0).fenced.contains 31 = true ∧ (up.fixedRun && up.job == 2) = false := by decide

/-- A TXB of core scope and an ALLREDUCE of 16 floats on axis X of die 0. -/
def dTxb : Desc := word0 (0x60 + 2 ^ 16)
/-- An ALLREDUCE of 16 floats on axis X of die 0. -/
def dColl : Desc := { w0 := 0x70, w1 := BitVec.ofNat 64 (7 * 2 ^ 48), w2 := 0x1000, w3 := 16 }

theorem wit_txnCollDecode : fld (word0 0x62).w0 7 0 = 0x62 ∧ running.canDecode 0 0 4 = true ∧
    running.txnRefusal 0 0 (word0 0x62) = none ∧ running.txnRefusal 0 0 dTxb = none ∧
    (running.noteStatus 0 0 dTxb).canDecode 0 0 4 = true ∧ (running.noteStatus 0 0 dTxb).txnRefusal 0 0 dTxb = none ∧
    fld dColl.w0 26 24 = 0 ∧ running.canDecode 0 0 3 = true ∧
    (running.setReg (pCOL 0) 0x018 1).collRefusal 0 0 dColl = none := by decide

/-- A core transaction of context 0 of core 0 in a state. -/
def txn (scope st : Nat) : Txn := { id := 1, scope := scope, txid := 0, die := 0, parts := 1, members := [{ core := 0, ctx := 0, status := 0 }],
                                    state := st }
/-- `running` with that transaction. -/
def inTxn (scope st : Nat) : State :=
  let t := withCtx (fun c => { c with txn := some 1 })
  { t with txn := { t.txn with txns := [txn scope st] } }

theorem wit_transactions : ((inTxn 1 1).ctx 0 0).txn = some 1 ∧ ((inTxn 1 1).tagWrite 1 0 0 0xFFC0 [1] false).isSome = true ∧
    0xFFC0 + 1 ≤ up.hbmEnd ∧ (inTxn 1 3).findTxn 1 = some (txn 1 3) ∧
    (inTxn 3 4).machineTxn = some (txn 3 4) ∧ up.pageCode (pTXN 0) 0x138 = none ∧
    (({ up with txn := { up.txn with tagged := [⟨5, none, [], false⟩] } } : State).taggedAt 5) = some ⟨5, none, [], false⟩ := by
  decide

/-- A collective of 16 floats on axis X. -/
def coll (by_ : Option (Nat × Nat × Ins)) : CollJob :=
  { axis := 0, id := 0, op := 0, mode := 0, root := 0, last := false, grad := false, src := 0, dst := 0x1000, n := 16, by_ := by_ }
/-- `running` with a collective waiting at the engine of die 0. -/
def collWaits : State := { running with coll := { running.coll with queue := [(0, coll none)] } }
/-- `running` with a collective in progress on axis X of die 0. -/
def collRuns (r : CollRun) : State := { running with coll := { running.coll with run := [(0, r)] } }

theorem wit_collectives :
    collWaits.coll.queue.find? (fun e => e.1 == 0 && e.2.axis == 0) = some (0, coll none) ∧ collWaits.collRun 0 0 = none ∧
    (collRuns { job := coll none, folded := 16, written := 16, begun := true, sent := true }).collRun 0 0 =
      some { job := coll none, folded := 16, written := 16, begun := true, sent := true } := by decide
theorem wit_collStart :
    let s := collWaits
    let e : Nat × CollJob := (0, coll none)
    let r : CollRun := { job := e.2, tag := s.newTag.1 }
    let u := s.newTag.2
    let u : State := { u with coll := { u.coll with
      queue := u.coll.queue.erase e
      run := u.coll.run ++ [(0, r)]
      dead := u.coll.dead.filter (fun k => k != (0, 0, 0)) } }
    ((u.collRegs 0).inject (pCOL 0) 1).1 = false := by decide

/-- A collective whose every element is written, header-only or asked for by an instruction in flight. -/
def collEnds (by_ : Option (Nat × Nat × Ins)) : CollRun :=
  { job := coll by_, folded := 16, written := 16, begun := true, sent := true }
/-- The instruction that asked for it. -/
def collIns : Ins := ins 3 dColl

theorem wit_collComplete :
    let s := collRuns (collEnds none)
    s.collPump.collRun 0 0 = some (collEnds none) ∧ s.collPump.live = true ∧ s.collPump.collDone (collEnds none) = true := by decide

theorem wit_collCompleteFor :
    let r := collEnds (some (0, 0, collIns))
    let t := withCtx (fun c => { c with fly := [collIns] })
    let s : State := { t with coll := { t.coll with run := [(0, r)] } }
    s.collPump.collRun 0 0 = some r ∧ s.collPump.live = true ∧ s.collPump.collDone r = true ∧
    (((s.collPump.collGone 0 0).addReg (pCOL 0) 0x128 1).ctx 0 0).fly.any (fun i => i.seq == collIns.seq && i.epoch == collIns.epoch) = true := by
  decide

theorem wit_collTimeout : (collRuns { job := coll none }).collRun 0 0 = some { job := coll none } ∧
    (collRuns { job := coll none }).collDone { job := coll none } = false ∧ pktOk 0x10 1 128 (pkt 0x10 64) = true ∧
    up.collFor 0 0 (pkt 0x10 64) = true := by decide

/-- `running` that ends a step: a STEP_END served, or a log entry written. -/
def ending : Ending := { committed := true, flags := 0, smin := 0, smax := 0, host := false, logged := true }

theorem wit_steps : running.reaches .host = true ∧ running.pageCode pCFE 0x188 = none ∧ running.job = 2 ∧ running.machineTxn = none ∧
    running.evalActive = false ∧ running.genBase ≠ 2 ∧ running.step.stepEnd = false ∧ running.step.ending = none ∧
    running.pageCode pCFE 0x1E0 = none ∧ running.pageCode pCFE 0x1E8 = none ∧
    ({ running with step := { running.step with stepEnd := true } } : State).reductionDone = true ∧
    ending.logged = true := by decide

theorem wit_barrier : (port0 2 {}).linkState 0 = 2 ∧ ({ up with coll := { up.coll with barDue := [true] } } : State).coll.barDue = [true] ∧
    (List.replicate 32 (0 : BitVec 32)).length = 32 ∧ up.board.pwrgood = true ∧ 3 ≤ up.stage := by decide

theorem wit_pace : (List.range 32).length = 32 := by decide

theorem wit_verdict : ({ flags := 0, smin := 1, smax := 1 } : VRec).positive = true ∧
    ({ flags := 1, smin := 1, smax := 1 } : VRec).positive = false := by decide
/-! ## Host queues -/

/-- `up` in a job state with a command at queue 15 and a QP 1 on port 0. -/
def queued (job op : Nat) (begun : Bool) : State :=
  let t := (up.setRf pCFE 0x100 2 0 job).setQueue 15
    { cur := some { desc := word0 op, hseq := 1, begun := begun, ver := 3 } }
  { t with qps := [{ port := 0, qpn := 0, ip := 1 }] }

/-- The command there. -/
def cmd (op : Nat) (begun : Bool) : Cmd := { desc := word0 op, hseq := 1, begun := begun, ver := 3 }

theorem wit_queueRows :
    let s := up.setRf pCFE (qOff 15 0x00) 0 0 1
    s.reaches .host = true ∧ s.pageCode pCFE1 (0x100 + 8 * 15) = none ∧ s.queueOn 15 = true ∧
    ((BitVec.ofNat 32 1).toNat + 2 ^ 32 - s.rf pCFE (qOff 15 0x20) 31 0) % 2 ^ 32 ≤ 2 ^ s.rf pCFE (qOff 15 0x00) 23 20 ∧
    (s.setRf pCFE (qOff 15 0x20) 63 32 1).mayFetch 15 = true ∧ s.pageCode pCFE (qOff 15 0x00) = none ∧
    (let v : Word := BitVec.ofNat 64 (1 + 4 * 2 ^ 20 + 4 * 2 ^ 24)
    bitAt v 0 = true ∧ bitAt (up.reg pCFE (qOff 15 0x00)) 0 = false ∧ (queued 0 1 false).queueCheck 15 v = cOK) ∧
    bitAt (0x4400000 : Word) 0 = false ∧ up.reg pCFE (qOff 15 0x00) &&& queueBits = 0x4400000 &&& queueBits := by decide

theorem wit_recordAck : ({ up with hcq := { up.hcq with unacked := [⟨3, 0, 0, 0, none, 0, 0⟩] } } : State).hcq.unacked.find?
    (fun r => r.dseq == 3) = some ⟨3, 0, 0, 0, none, 0, 0⟩ := by decide

/-- `up` whose queue 0 has an entry at address 0 with an HSEQ and has accepted `a`. -/
def entry (h a : Nat) : State :=
  let t := up.setReg pCFE (qOff 0 0x30) (BitVec.ofNat 64 a)
  { t with mem := (t.mem.putByte 0 1).putByte 8 (BitVec.ofNat 8 h) }

set_option maxRecDepth 20000 in
theorem wit_sequence :
    (descOf (((entry 4 3).readReq 0 64 (some 0)).2.bytes 0 64)).w1.toNat = 4 ∧ fld (descOf (((entry 4 3).readReq 0 64 (some 0)).2.bytes 0 64)).w0 7 0 = 1 ∧
    (((entry 4 3).readReq 0 64 (some 0)).2.reg pCFE (qOff 0 0x30)).toNat = 3 ∧
    (descOf (((entry 3 3).readReq 0 64 (some 0)).2.bytes 0 64)).w1.toNat = 3 ∧ (descOf (((entry 5 3).readReq 0 64 (some 0)).2.bytes 0 64)).w1.toNat = 5 ∧
    (descOf (((entry 0 3).readReq 0 64 (some 0)).2.bytes 0 64)).w1.toNat = 0 := by decide

theorem wit_commands :
    (queued 2 1 false).live = true ∧ ((queued 2 1 false).queue 15).cur = some (cmd 1 false) ∧
    (queued 2 1 false).judge (cmd 1 false) (resvWords (word0 1) [2, 3, 4, 5, 6, 7]) unfrozen = none ∧
    (let c : Cmd := { cmd 2 false with desc := { word0 2 with w2 := 7 } }
    up.judge c (resvWords c.desc [3, 4, 5, 6, 7] ++ [resv c.desc 2 63 3, (2, 0, cVERSION, offered c.desc.w2 == 0)]) unfrozen = none) ∧
    (queued 1 4 false).judge (cmd 4 false) (resvWords (word0 4) [2, 3, 4, 5, 6, 7]) [1, 6] = none ∧
    (queued 1 5 false).wicketNoJob = false ∧
    (queued 1 5 false).judge (cmd 5 false) (resvWords (word0 5) [2, 3, 4, 5, 6, 7]) [1] = none ∧
    (queued 2 6 false).judge (cmd 6 false) (resvWords (word0 6) [2, 3, 4, 5, 6, 7]) [2, 3, 6] = none ∧
    (queued 2 7 false).judge (cmd 7 false) (resvWords (word0 7) [2, 3, 4, 5, 6, 7]) [2] = none ∧
    (queued 3 8 false).judge (cmd 8 false) (resvWords (word0 8) [2, 3, 4, 5, 6, 7]) [3] = none ∧
    ((queued 2 9 false).setReg pGEN 0x100 2).genBase = 2 ∧
    (queued 2 9 false).judge (cmd 9 false) (resvWords (word0 9) [4, 5, 6, 7] ++
      [(2, 0, cCONFLICT, (0 : Word) != up.reg pCFE 0x1C0), resv (word0 9) 3 63 3]) [2] = none := by decide

/-- `queued` with every page enabled that a configuration names. -/
def configured : State := configPages.foldl (fun (s : State) (p : Nat) => s.setReg p 0x018 1) (queued 1 5 false)

set_option maxRecDepth 20000 in
theorem wit_start : configured.startCode = cOK ∧ (configured.queue 15).cur = some (cmd 5 false) ∧ configured.wicketNoJob = false := by
  decide

/-- `up` with an image of 144 cores and no entry at address 4096. -/
def image : State :=
  { up with mem := ((up.mem.putByte 4096 3).putByte 4104 0x40).putByte 4105 0x09 }
/-- The LOAD of that image. -/
def loadCmd : Cmd := { desc := { w0 := 3, w2 := 4096, w3 := 0x940 }, hseq := 1, ver := 1 }

set_option maxRecDepth 20000 in
theorem wit_load : image.wicketNoJob = false ∧ image.judge loadCmd (image.loadChecks loadCmd) [0] = none := by decide

/-- A transfer of 64 bytes to address 0, a snapshot of no region, an attestation. -/
def xferCmd : Cmd := { desc := { w0 := 0x0A, w4 := BitVec.ofNat 64 (64 * 2 ^ 32) }, hseq := 1, ver := 1 }
/-- A snapshot of region 0. -/
def snapCmd : Cmd := { desc := { w0 := 0x0B, w4 := BitVec.ofNat 64 (64 * 2 ^ 32) }, hseq := 1, ver := 3 }

theorem wit_transfers :
    (queued 2 10 false).readRoom xferCmd.desc = true ∧
    (queued 2 10 false).judge xferCmd ((queued 2 10 false).xferChecks xferCmd) [1, 2, 3, 6] = none ∧
    (let s := ((queued 2 11 false).setReg (pTXN 0) 0x018 1).setReg (pTXN 0) 0x118 1
    s.judge snapCmd (s.snapChecks snapCmd) [2, 3, 6] = none) ∧
    (queued 2 12 false).judge (cmd 12 false) ((queued 2 12 false).attestChecks (cmd 12 false)) unfrozen = none ∧
    ((queued 2 10 true).queue 15).cur = some (cmd 10 true) ∧ (cmd 10 true).moved = (cmd 10 true).total ∧
    fld (cmd 11 true).desc.w0 7 0 = 0x0B := by decide

theorem wit_refusedCommand : (queued 1 7 false).judge (cmd 7 false) (resvWords (word0 7) [2, 3, 4, 5, 6, 7]) [2] = some cSTATE ∧
    (queued 0 4 false).judge (cmd 4 false) (resvWords (word0 4) [2, 3, 4, 5, 6, 7]) [1, 6] = some cSTATE := by decide
/-! ## Host Ethernet -/

/-- `up` with RCE[0] and ETH[0] enabled and UP, an allowed address 1 and QP 7. -/
def eth : State :=
  let t := (((up.setReg (pRCE 0) 0x018 1).setReg (pETH 0) 0x018 1).setReg (pRCE 0) 0x2C8 1).setReg (pETH 0) 0x108 2
  { t with qps := [{ port := 0, qpn := 7, ip := 1, retries := 7, posts := [{ queue := 0, bytes := 64, dest := none }] }] }

theorem wit_ethernet : eth.portTakes 0 = true ∧ eth.portServes 0 = true ∧ eth.qpUsable 0 7 = true ∧
    eth.rdmaAllowed 0 0 0 64 true = false ∧ ((eth.receive 0 1).takeResponse 0 7 .ack).isSome = true ∧
    eth.mayConnect 0 1 = true ∧ eth.mayConnect 0 2 = false ∧
    eth.qpCount 0 < 1024 ∧ eth.qpUsable 0 (2 ^ 24 - 1) = false ∧ eth.live = true ∧
    ((eth.findQp 0 7).map eth.outstanding) = some 1 ∧ (eth.findQp 0 7).map (fun k => (k.tries, k.retries)) = some (0, 7) ∧ eth.enabled (pETH 0) = true ∧ (eth.setReg (pETH 0) 0x108 1).ethLink 0 % 4 ≠ 2 ∧ eth.modeOk 0 0 = true ∧
    eth.ethLink 0 % 4 = 2 := by decide

/-- `up` whose port 0 the management controller runs: Transom reaches register space (R386). -/
def transom : State := { up with qps := [{ port := 0, qpn := 7, ip := 1 }] }

theorem wit_rdmaWrite : transom.portServes 0 = true ∧ transom.qpUsable 0 7 = true ∧
    transom.rdmaAllowed 0 0 (regBase + 4096 * pCFE + 0x180) 8 true = true ∧
    ((transom.receive 0 1).rdmaStore (regBase + 4096 * pCFE + 0x180) (List.replicate 8 0)).isSome = true := by decide

theorem wit_retriesSpent : (({ up with qps := [{ port := 0, qpn := 7, ip := 1, posts := [⟨0, 64, none⟩] }] } : State).findQp 0 7).map
    (fun k => k.tries == k.retries) = some true := by decide

/-! ## Torus -/

theorem wit_training :
    (port0 1 {}).linkState 0 = 1 ∧ ((port0 1 {}).port 0).step = 1 ∧ ((port0 1 {}).port 0).window = false ∧
    ((port0 1 { step := 2, window := true }).port 0).mayLock 3 = true ∧
    ((port0 1 { step := 2, window := true }).lockLane 0 3).linkState 0 = 1 ∧
    2 ≤ ((port0 1 { step := 2, window := true }).port 0).unlocked.length ∧
    ((port0 1 { step := 7 }).port 0).step = 7 ∧
    ({ port0 1 { step := 7 } with boot := { up.boot with aligned := [portXing 0] } } : State).boot.aligned.contains (portXing 0) = true ∧
    (port0 2 {}).reaches .host = true ∧ (port0 2 {}).pageCode (pTOR 0) 0x150 = none ∧ (port0 2 {}).linkState 0 ≠ 1 := by decide

/-- A packet for output from the core slot. -/
def outPkt : OutPkt := { pkt := pkt 0x04 64, need := 2, slot := 0, inVc := 0 }

set_option maxRecDepth 20000 in
theorem wit_link :
    (pkt 0x01 64).payload.length ≤ 8192 ∧ (port0 2 {}).inUnits 0 (laneOf (pkt 0x01 64)) + bufUnits (pkt 0x01 64) ≤ 288 ∧
    (port0 2 {}).live = true ∧ ((port0 2 { replay := [(0, pkt 0x04 64)] }).port 0).replay ≠ [] ∧
    (((port0 2 { out0 := [outPkt] }).setCredits 0 0 288).nextSlot 0).map (fun e => slotVc e.1) = some 0 ∧
    ((port0 2 { in0 := [pkt 0x04 64] }).takeInput 1 0 0).isSome = true := by decide

theorem wit_relink : (port0 2 {}).live = true ∧ 2 ≤ (port0 5 {}).linkState 0 ∧ (port0 5 {}).linkState 0 ≤ 5 ∧
    ((port0 1 { step := 2, window := true, locked := [0, 1, 3] }).port 0).unlocked.length = 1 := by decide

theorem wit_training_record : ∃ r : TrainRec, ((port0 1 { step := 3 }).takeRecord 0 r).linkState 0 = 1 :=
  ⟨{ x := 1, y := 0, z := 0, facing := 1, port := 0, versions := 7, maxRate := 3, spareUsable := false, failedLanes := 0 }, by decide⟩

theorem wit_credits : (port0 2 {}).credits 0 3 + (288 - (port0 2 {}).credits 0 3) ≤ 288 ∧
    288 < (port0 2 {}).credits 0 3 + 289 := by decide

set_option maxRecDepth 20000 in
theorem wit_packets : pktOk 0x18 1 128 (pkt 0x18 64) = true ∧ pktOk 0x01 1 128 (pkt 0x01 63) = true ∧
    (up.takeArrival (pkt 0x01 64)).serveWr (pkt 0x01 64) ≠ none ∧ pktOk 0x02 0 0 (pkt 0x02 0) = true ∧
    pktOk 0x03 1 1 (pkt 0x03 64) = true ∧ up.inHold (pktAddr (pkt 0x03 64)) = false ∧ pktOk 0x08 0 0 (pkt 0x08 0) = true ∧
    pktOk 0x09 1 128 (pkt 0x09 64) = true ∧ pktOk 0x0A 1 1 (pkt 0x0A 64) = true ∧ pktOk 0x0B 0 0 (pkt 0x0B 0) = true := by decide
/-- `holding` where a WR to the line in hold has arrived. -/
theorem wit_packetHeld : ((holding.takeArrival (pkt 0x01 64)).heldIn (pktAddr (pkt 0x01 64)) 64).isSome = true ∧
    ((holding.takeArrival (pkt 0x01 64)).holdReq
      { what := .cmd (.wr (pkt 0x01 64)), line := 0, cls := none, die := holding.homeDie 0 }).isSome = true ∧
    (up.takeArrival (pkt 0x03 64)).heldIn (pktAddr (pkt 0x03 64)) 8 = none ∧
    (up.takeArrival (pkt 0x03 64)).closing (pktAddr (pkt 0x03 64)) 8 = false := by decide
/-! ## Power, bring-up, errors, Keyhole, security -/

theorem wit_frame : isNext (exec .vstbyGood State.reset) = true ∧ Regs.wf State.reset.regs = true := by decide

theorem wit_power : up.board.pwrgood = true ∧ 1 ≤ up.stage ∧ (65535 : Nat) < 65536 ∧
    (List.replicate 64 ({ temp := -32768 } : Sensor)).length = 64 ∧
    ({ up with pwr := { up.pwr with tokens := [31] } } : State).firstToken 31 = true ∧
    ({ up with pwr := { up.pwr with tokens := [31] } } : State).tokenFree 31 = true ∧
    ((up.setIsland 31 { target := some 5 }).island 31).target = some 5 ∧ (up.setIsland 31 { target := some 5 }).ramping.contains 31 = true ∧
    up.pwr.stopped = none ∧ (up.island 31).target = none ∧
    (up.setRf (pPWR 31) 0x110 15 0 65535).committed 31 < (up.setRf (pPWR 31) 0x110 15 0 65535).envelope 31 := by decide

/-- `up` with lending allowed on die 3 and every context of cluster 31 asleep. -/
def lends : State :=
  let t := (up.setReg (pSYN 147) 0x018 1).setReg (pSYN 147) 0x180 1
  (rangeFrom (t.clusterFirst 3 7) (t.clusterCores 3 7)).foldl (fun (s : State) (n : Nat) =>
    (s.setRf (pCOR n) (corOff 0 0x00) 2 0 1).setCtx n 0 { wait := some ⟨7, ins 4 (word0 0x51), none, 0, true, false⟩ }) t

theorem wit_lend : lends.enabled (pSYN 147) = true ∧ lends.rf (pSYN 147) 0x180 1 0 = 1 ∧ (lends.island 31).lends = false ∧
    lends.floorDemand 31 < lends.capCeiling 31 ∧ lends.rests 31 = true := by decide

theorem wit_powerStop : 1 ∉ up.pwr.present ∧ 2 ∉ up.pwr.present ∧
    (({ up with pwr := { up.pwr with stopped := some 3 } } : State).pwr.present = [] ∧
      ({ up with pwr := { up.pwr with stopped := some 3 } } : State).pwr.stopped = some 3) ∧
    (let s : State := { up with board := { up.board with pwrgood := false } }
    s.board.vstby = true ∧ s.board.pwrgood = false) ∧ State.reset.board.vstby = false := by decide

/-- A package at a stage with its crossings aligned. -/
def booting (stage : Nat) : State :=
  { up with boot := { up.boot with
    stage := stage
    aligned := allXings } }

set_option maxRecDepth 20000 in
theorem wit_bringup :
    (let s := booting 0
    s.board.pwrgood = true ∧ s.stage = 0 ∧ s.boot.strapped = true ∧ s.boot.mscUp = true ∧ (150 : Nat) < 65536 ∧ s.inTime 150 150 = true) ∧
    ({ booting 0 with boot := { (booting 0).boot with strapped := false } } : State).boot.strapped = false ∧
    (let s := booting 1
    s.powered = true ∧ s.stage = 1 ∧ s.bootFail = 0 ∧ (∀ x ∈ firstXings, x ∈ s.boot.aligned) ∧ s.rf pCFE 0x208 15 0 ≤ 550 ∧
      s.inTime 400 (if 2 ≤ s.rf pCFE 0x200 26 24 then 400 else 550) = true ∧ s.selectable 0 = true) ∧
    (let s := booting 2
    s.powered = true ∧ s.training = true ∧ s.badDie = none ∧ s.rf pCFE 0x208 31 16 ≤ 4500 ∧
      s.inTime 4500 (if 2 ≤ s.rf pCFE 0x200 26 24 then 4500 else 5000) = true) := by decide

set_option maxRecDepth 20000 in
theorem wit_stageS3 : (booting 2).mayFinish = true ∧ (∀ x ∈ allXings, x ∈ (booting 2).boot.aligned) := by decide

theorem wit_voltage : ((booting 2).setIsland 35 { target := some 100 }).unsettled 35 = true ∧
    ((booting 2).setIsland 35 { target := some 100 }).powered = true := by decide

theorem wit_recovery : ({ booting 0 with boot := { (booting 0).boot with recovery := true } } : State).boot.recovery = true ∧
    8 ≤ (List.replicate 8 (0 : Byte)).length ∧ (List.replicate 8 (0 : Byte)).length ≤ 1024 ∧
    up.reaches .host = true ∧ up.pageCode pCFE 0x210 = none ∧ up.pageCode pCFE 0x218 = none ∧
    (let s := (booting 2).setRf pCFE 0x200 17 16 1
    s.bootMode = 1 ∧ s.stage = 2 ∧ s.job = 0) ∧
    up.jobBusy = false ∧ up.job ≠ 5 ∧ up.hcq.starting = none ∧ up.coreServed 143 = true := by decide

/-- A package in bring-up whose crossing `x` is aligning, filled or ticked. -/
def crossing (stage : Nat) (filled ticked : List Nat) : State :=
  { up with boot := { up.boot with
    stage := stage
    filled := filled
    ticked := ticked } }

set_option maxRecDepth 20000 in
theorem wit_crossings :
    (crossing 1 [] []).aligning 9 = true ∧ (crossing 1 [] []).boot.filled.contains 9 = false ∧ (crossing 1 [] []).stage < 3 ∧
    (let s := crossing 1 (crossing 1 [] []).tickGroup []
    s.live = true ∧ (∀ y ∈ s.tickGroup, y ∈ s.boot.filled) ∧ ∃ y ∈ s.tickGroup, y ∉ s.boot.ticked) ∧
    9 ∈ (crossing 1 [] [9]).boot.ticked ∧ 9 ∉ (crossing 1 [] [9]).boot.aligned := by decide

theorem wit_crossingPort :
    let t := crossing 3 [portXing 0] []
    let s := (t.setRf (pTOR 0) 0x108 2 0 1).setPort 0 { step := 7, relink := true }
    s.aligning (portXing 0) = true ∧ s.portAligns (portXing 0) = true ∧ portXing 0 ∈ s.boot.filled ∧ portXing 0 ∉ s.boot.ticked := by
  decide

theorem wit_errors : up.live = true ∧ up.coreServed 143 = true ∧ 2 ≤ up.stage ∧ up.frozen ≠ 2 ∧
    13 * (3 : Fin 4).val + (11 : Fin 13).val ∈ allXings ∧ up.sec.seqr.trial = false ∧ up.board.vstby = true ∧
    (let s := up.setReg pSHT 0x110 (BitVec.ofNat 64 (2 ^ 63 + 2))
    s.frozen = 2 ∧ s.shut.session = none ∧ s.rf (pRAS 0) 0x100 47 32 ≠ 0) ∧
    up.pageCode (pRAS 0) 0x138 = none ∧ (BitVec.ofNat 8 143).toNat ≤ 143 := by decide

/-- `up` with its Shutter enabled, its pin taken as an input. -/
def shutter : State := (up.setReg pSHT 0x018 1).setReg pSHT 0x100 0x10

theorem wit_freeze : shutter.enabled pSHT = true ∧ bitAt (shutter.reg pSHT 0x100) 4 = true ∧ shutter.live = true ∧
    shutter.pageCode pSHT 0x108 = none ∧ (port0 2 {}).linkState 0 = 2 ∧
    (let s := (port0 2 {}).setReg pSHT 0x110 (BitVec.ofNat 64 (2 ^ 63 + 5 * 2 ^ 32 + 9 * 2 ^ 16 + 1))
    s.linkState 0 = 2 ∧ s.frozen = 1 ∧ s.sameFreeze 5 9 = true) := by decide

theorem wit_fatal : bitAt (up.reg (pRAS 0) 0x108) 63 = false ∧
    bitAt ((up.setReg (pRAS 0) 0x108 (BitVec.ofNat 64 (2 ^ 63))).reg (pRAS 0) 0x108) 63 = true := by decide

theorem wit_frozen : frozen.live = false ∧ Safety.Clocked (.paceWindow []) = true := by decide

/-- A Keyhole request. -/
def khReq : KhReq := { via := .jtag, space := 0, tag := 0, addr := 0, length := 0, session := 0, data := [] }
/-- `frozen` with a session open. -/
def session : State := { frozen with shut := { frozen.shut with session := some ⟨1, true, 0xF⟩ } }

theorem wit_keyhole : up.khTakes khReq = true ∧ khReq.data.length = khReq.length ∧ session.khTakes khReq = true ∧
    session.khPlainCode { khReq with session := 1 } = cOK ∧ session.frozen = 1 ∧ session.shut.session.isSome = true := by decide

theorem wit_keyhole_elsewhere : up.khTakes { khReq with via := .udp 1 } = false ∧
    ({ up with boot := { up.boot with cfg := { up.boot.cfg with allow := [0, 1] } } } : State).khTakes
      { khReq with via := .udp 1 } = true := by decide

theorem wit_security : up.reaches .host = true ∧ up.pageCode pSEC 0x110 = none ∧ up.pageCode pSEC 0x120 = none ∧
    up.pageCode pSEC 0x128 = none ∧ up.sec.busy = none ∧ (up.slotsOf 3).trial = false ∧
    (let s : State := { up with sec := { up.sec with msc := { up.sec.msc with validB := true } } }
    (s.slotsOf 1).valid (1 - (s.slotsOf 1).active) = true) ∧
    (let s : State := { up with sec := { up.sec with msc := { up.sec.msc with trial := true } } }
    (s.slotsOf 1).trial = true) := by decide

/-- `up` with image MSC in trial, its SVN byte and those of the other active images known. -/
def trial : State := { up with sec := { up.sec with
  msc := { up.sec.msc with trial := true }
  flash := Tab.put (Tab.put (Tab.put [] (flashKey 1 0 4) 0) (flashKey 2 0 4) 0) (flashKey 3 0 4) 0 } }

theorem wit_burn : trial.sec.msc.trial = true ∧
    ∀ m ∈ trial.activeMans, (trial.manifest 1 trial.sec.msc.active).svn ≤ m.svn := by decide

theorem wit_refusal : (firstRefusal [(1, 0, 2, true), (0, 5, 1, true), (0, 5, 4, false)]).map (fun r => (r.word, r.bit, r.code)) =
    some (0, 5, 1) ∧ firstRefusal [(0, 0, 1, false)] = none := by decide
/-! ## Values that the manual states -/

/-- R236: a tally has reached its own value and what lies at most 2^63 - 1 behind. -/
theorem test_reached : reached 5 5 = true ∧ reached 4 5 = false ∧ reached 3 (2 ^ 64 - 1) = true ∧ reached 0 (2 ^ 63) = false := by decide

/-- R303: the exact sum, its limits, NAR. -/
theorem test_a64Add : (a64Add 3 4).1 = 7 ∧ (a64Add (BitVec.ofNat 64 (2 ^ 63 - 2)) 5).1 = BitVec.ofNat 64 (2 ^ 63 - 1) ∧
    (a64Add narWord 1).1 = narWord := by decide

/-- R293: consecutive granules rotate across stacks first, then across pseudo-channels. -/
theorem test_hbmMap : up.hbmMap 255 = (0, 0, 0) ∧ up.hbmMap 256 = (1, 0, 0) ∧ up.hbmMap (20 * 256) = (0, 1, 0) ∧
    up.hbmMap (640 * 256) = (0, 0, 1) := by decide

/-- R399: a START with no job loaded is refused with STATE. -/
theorem test_refusedStart : (queued 0 5 false).judge (cmd 5 false) (resvWords (word0 5) [2, 3, 4, 5, 6, 7]) [1] = some cSTATE := by decide

end Sys2Proof.Tests
end

section
/-! SUPPORT. The proofs of the statements about the crossings and about the accesses of programs. -/

namespace Sys2Proof.Machine

/-! ## One clock of a crossing (R25, R26) -/

theorem XBuf.present_of_full {b : XBuf} (h : 15 ≤ b.buf.length) : b.present = b := if_pos h

theorem XBuf.present_of_held {b : XBuf} {t : Token} {r : List Token} (h : b.buf.length < 15) (hh : b.held = t :: r) :
    b.present = { buf := b.buf ++ [t], held := r } := by
  simp [XBuf.present, xingDepth, h, hh]

theorem XBuf.present_of_none {b : XBuf} (h : b.buf.length < 15) (hh : b.held = []) :
    b.present = { buf := b.buf ++ [.idle], held := [] } := by
  simp [XBuf.present, xingDepth, h, hh]

theorem XBuf.take_of_cons {b : XBuf} {t : Token} {r : List Token} (h : b.buf = t :: r) :
    b.take = (if t = .idle then none else some t, { b with buf := r }) := by
  rw [XBuf.take, h]

@[simp] theorem XBuf.take_held (b : XBuf) : b.take.2.held = b.held := by
  unfold XBuf.take; split <;> rfl

@[simp] theorem XBuf.take_buf (b : XBuf) : b.take.2.buf = b.buf.tail := by
  cases h : b.buf with
  | nil => simp [XBuf.take, h]
  | cons t r => simp [XBuf.take_of_cons h]

/-- All that one clock of the presenting side can do. -/
theorem XBuf.present_cases (b : XBuf) :
    (15 ≤ b.buf.length ∧ b.present = b) ∨
    (b.buf.length < 15 ∧ ∃ t r, b.held = t :: r ∧ b.present = { buf := b.buf ++ [t], held := r }) ∨
    (b.buf.length < 15 ∧ b.held = [] ∧ b.present = { buf := b.buf ++ [.idle], held := [] }) := by
  rcases Nat.lt_or_ge b.buf.length 15 with hlt | hge
  · cases hh : b.held with
    | nil => exact .inr (.inr ⟨hlt, rfl, XBuf.present_of_none hlt hh⟩)
    | cons t r => exact .inr (.inl ⟨hlt, t, r, rfl, XBuf.present_of_held hlt hh⟩)
  · exact .inl ⟨hge, XBuf.present_of_full hge⟩

/-! ## No datum is lost or overtaken (R26) -/

/-- The data that a crossing still has to pass, oldest first. -/
def XBuf.data (b : XBuf) : List Token := (b.buf ++ b.held).filter (fun t => decide (t ≠ .idle))

theorem XBuf.data_present (b : XBuf) : b.present.data = b.data := by
  rcases b.present_cases with ⟨_, e⟩ | ⟨_, t, r, hh, e⟩ | ⟨_, hh, e⟩
  · rw [e]
  · simp [e, XBuf.data, hh]
  · simp [e, XBuf.data, hh]

theorem XBuf.take_data (b : XBuf) : b.take.1.toList ++ b.take.2.data = b.data := by
  cases h : b.buf with
  | nil => simp [XBuf.take, h]
  | cons t r =>
    rw [XBuf.take_of_cons h]
    by_cases ht : t = .idle <;> simp [XBuf.data, h, ht]

/-- At any time what has come out, followed by what is still to pass, is what there was to pass. -/
theorem XBuf.run_data (b : XBuf) (n : Nat) : (b.run n).1 ++ (b.run n).2.data = b.data := by
  induction n generalizing b with
  | zero => rfl
  | succ k ih => rw [XBuf.run, List.append_assoc, ih, XBuf.take_data, XBuf.data_present]

/-! ## A crossing drains -/

/-- After `n` clocks the crossing holds idle tokens only: either nothing is held back and no datum stands behind the `n`
oldest tokens, or the crossing has at most `n` tokens in all. -/
def XBuf.DrainsIn (b : XBuf) (n : Nat) : Prop :=
  (b.held = [] ∧ ∀ t ∈ b.buf.drop n, t = .idle) ∨ b.held.length + b.buf.length ≤ n

theorem XBuf.drainsIn_zero {b : XBuf} (h : b.DrainsIn 0) : b.held = [] ∧ ∀ t ∈ b.buf, t = .idle := by
  rcases h with h | h
  · exact h
  · have hh : b.held = [] := List.length_eq_zero_iff.1 (by omega)
    have hb : b.buf = [] := List.length_eq_zero_iff.1 (by omega)
    simp [hh, hb]

theorem XBuf.DrainsIn.idle_behind {b : XBuf} {n : Nat} (h : b.DrainsIn n) : ∀ t ∈ b.buf.drop n, t = .idle := by
  rcases h with ⟨_, h⟩ | h
  · exact h
  · simp [List.drop_eq_nil_of_le (Nat.le_trans (Nat.le_add_left _ _) h)]

/-- Each clock brings a crossing one clock nearer to being drained. -/
theorem XBuf.DrainsIn.clock {b : XBuf} {n : Nat} (h : b.DrainsIn (n + 1)) : b.present.take.2.DrainsIn n := by
  unfold XBuf.DrainsIn
  rw [XBuf.take_held, XBuf.take_buf, List.drop_tail]
  rcases b.present_cases with ⟨_, e⟩ | ⟨_, t, r, hh, e⟩ | ⟨_, hh, e⟩
  · rw [e]
    rcases h with h | h
    · exact .inl h
    · right
      rw [List.length_tail]
      omega
  · have hlen : b.held.length + b.buf.length ≤ n + 1 := h.resolve_left (by simp [hh])
    rw [hh, List.length_cons] at hlen
    right
    simp only [e, List.length_tail, List.length_append, List.length_singleton]
    omega
  · left
    rw [e]
    refine ⟨rfl, fun t ht => ?_⟩
    rw [List.drop_append, List.mem_append] at ht
    rcases ht with ht | ht
    · exact h.idle_behind t ht
    · exact List.mem_singleton.1 (List.mem_of_mem_drop ht)

theorem XBuf.run_drained {b : XBuf} {n : Nat} (h : b.DrainsIn n) :
    (b.run n).2.held = [] ∧ ∀ t ∈ (b.run n).2.buf, t = .idle := by
  induction n generalizing b with
  | zero => exact XBuf.drainsIn_zero h
  | succ k ih => exact ih h.clock

/-- Idle tokens are all that a drained crossing has: it has no data. -/
theorem XBuf.data_of_drained {b : XBuf} (hh : b.held = []) (hb : ∀ t ∈ b.buf, t = .idle) : b.data = [] := by
  simpa [XBuf.data, hh] using hb

/-! ## The buffer stays within its depth (R25) -/

theorem XBuf.run_within {b : XBuf} (h : b.buf.length ≤ 16) (n : Nat) : (b.run n).2.buf.length ≤ 16 := by
  induction n generalizing b with
  | zero => exact h
  | succ k ih =>
    refine ih ?_
    have hp : b.present.buf.length ≤ 16 := XBuf.present_within h
    rw [XBuf.take_buf, List.length_tail]
    omega

/-- What passes through a crossing (R25, R26): the data of the buffer, of the queue and the new ones come out in that order. -/
theorem XBuf.pass_spec (b : XBuf) (ts : List Token) :
    (b.pass ts).1 = (b.buf ++ b.held ++ ts).filter (fun t => decide (t ≠ .idle)) ∧
    (b.pass ts).2.held = [] ∧ ∀ t ∈ (b.pass ts).2.buf, t = .idle := by
  let c : XBuf := { b with held := b.held ++ ts }
  have hd : c.DrainsIn (c.held.length + c.buf.length + 2) := .inr (Nat.le_add_right _ 2)
  obtain ⟨hh, hb⟩ := XBuf.run_drained hd
  refine ⟨?_, hh, hb⟩
  have he := c.run_data (c.held.length + c.buf.length + 2)
  rw [XBuf.data_of_drained hh hb, List.append_nil, XBuf.data, ← List.append_assoc] at he
  exact he

/-- Settles O53: data are conserved clock by clock, and as many clocks as there are tokens drain the crossing. That a crossing
runs until it has passed all its data is entry 67 of the log. -/
theorem crossingPassesEveryDatum : Obligations.CrossingPassesEveryDatum := by
  unfold Obligations.CrossingPassesEveryDatum
  constructor
  · intro b ts _ r
    obtain ⟨hout, hheld, hbuf⟩ := b.pass_spec ts
    exact ⟨hout, hheld, hbuf, fun hlen => XBuf.run_within (b := { b with held := b.held ++ ts }) hlen _⟩
  · intro b
    refine ⟨XBuf.present_of_full, fun hlt => ⟨?_, fun t r => XBuf.present_of_held hlt, fun hh => ?_⟩, fun t r => XBuf.take_of_cons⟩
    · exact b.present_length.trans (if_neg (Nat.not_le.2 hlt))
    · rw [XBuf.present_of_none hlt hh, hh]

/-! ## The rows of alignment (R27 to R29) -/

/-- An aligning crossing that is not yet filled empties and fills (R27 steps 2 and 3). -/
theorem exec_crossingFilled {s : State} {d : DieId} {x : XingId} (ha : s.aligning (13 * d.val + x.val) = true)
    (hf : s.boot.filled.contains (13 * d.val + x.val) = false) :
    exec (.crossingFilled d x) s =
      .next (((({ s with boot := { s.boot with filled := insSet s.boot.filled (13 * d.val + x.val) } } : State).emptyXing
        (13 * d.val + x.val)).fillXing (13 * d.val + x.val)).settle) :=
  occurs_of (by rw [ha, hf]; rfl) _

/-- A crossing that does not fill in time leaves the package at S1 and its die in RAS.STATUS (R28). -/
theorem exec_crossingTimeout {s : State} {d : DieId} {x : XingId} (hs : s.stage < 3) (ha : s.aligning (13 * d.val + x.val) = true)
    (hf : s.boot.filled.contains (13 * d.val + x.val) = false) :
    exec (.crossingTimeout d x) s =
      .next ((s.setReg (pRAS 0) 0x020 (BitVec.ofNat 64 (65536 + x.val * 4096 + d.val * 256))).failBoot 1 2 d.val 0).settle :=
  occurs_of (by rw [decide_eq_true hs, ha, hf]; rfl) _

/-- The MSC's start tick serves the whole group, once all of it is filled (R27 step 5). -/
theorem exec_startTick_group {s : State} (hl : s.live = true) (hf : ∀ y ∈ s.tickGroup, y ∈ s.boot.filled)
    (ht : ∃ y ∈ s.tickGroup, y ∉ s.boot.ticked) : exec (.startTick none) s = .next (s.tick s.tickGroup).settle :=
  occurs_of (by simpa [hl] using ⟨hf, ht⟩) _

/-- The start tick of one torus port serves its crossing alone (R29). -/
theorem exec_startTick_port {s : State} {p : PortId} (ha : s.aligning (portXing p.val) = true)
    (hp : s.portAligns (portXing p.val) = true) (hf : portXing p.val ∈ s.boot.filled) (ht : portXing p.val ∉ s.boot.ticked) :
    exec (.startTick (some p)) s = .next (s.tick [portXing p.val]).settle :=
  occurs_of (by simp [ha, hp, hf, ht]) _

/-- A ticked crossing releases its datapath (R27 step 7). -/
theorem exec_datapathRelease {s : State} {d : DieId} {x : XingId} (hl : s.live = true)
    (ht : 13 * d.val + x.val ∈ s.boot.ticked) (ha : 13 * d.val + x.val ∉ s.boot.aligned) :
    exec (.datapathRelease d x) s =
      .next ({ s with boot := { s.boot with aligned := insSet s.boot.aligned (13 * d.val + x.val) } } : State).settle :=
  occurs_of (by simp [hl, ht, ha]) _

/-- Settles O54, row by row. -/
theorem crossingRows : Obligations.CrossingRows := by
  intro s d x n
  refine ⟨fun ha hf => ⟨exec_crossingFilled ha hf, fun hs => exec_crossingTimeout hs ha hf⟩, exec_startTick_group,
    fun p => exec_startTick_port, exec_datapathRelease⟩

/-! ## Accesses of programs (R42, R130, R248, R518) -/

theorem State.live_of_runs {s : State} {n x : Nat} (h : s.runs n x = true) : s.live = true := by
  simp only [State.runs, Bool.and_eq_true] at h
  exact h.1.2

theorem State.trigDecode_of_unarmed {s : State} (h : s.trigArmed 1 = false) (n x pc : Nat) : s.trigDecode n x pc = s := by
  simp [State.trigDecode, h]

/-- With no trigger and no injected fault, the decode of a running context's instruction goes on to its effect. -/
theorem State.decodeAccess_of {s : State} {n x : Nat} (hr : s.runs n x = true) (ht : s.trigArmed 1 = false)
    (hi : (s.inject (pCOR n) 2).1 = false) (f : State → Res) : s.decodeAccess n x f = f (s.inject (pCOR n) 2).2 := by
  simp [State.decodeAccess, State.trigDecode_of_unarmed ht, hr, State.live_of_runs hr, hi]

section Access

variable {s : State} {n : CoreId} {x : CtxId}
  (hr : s.runs n.val x.val = true) (ht : s.trigArmed 1 = false) (hi : (s.inject (pCOR n.val) 2).1 = false)
include hr ht hi

/-- HALT of a running context (R248). -/
theorem exec_halt : exec (.halt n x) s = .next ((s.inject (pCOR n.val) 2).2.haltCtx n.val x.val).progress.settle := by
  change execHalt n x s = _
  rw [execHalt, State.decodeAccess_of hr ht hi, State.advance_eq]

/-- A load that neither has to wait nor is refused (R42, R518). -/
theorem exec_programLoad {a npc : BitVec 48} {k : Nat} (hk : loadWidths.contains k = true) (hh : s.inHold a.toNat = false)
    (hc : s.closing a.toNat k = false) (ha : (s.inject (pCOR n.val) 2).2.accessCode a.toNat k true = cOK) :
    exec (.programLoad n x a k npc) s =
      .next ((s.inject (pCOR n.val) 2).2.loadNow n x a.toNat k npc.toNat).progress.settle := by
  change execProgramLoad n x a k npc s = _
  rw [execProgramLoad, wellFormed_of hk, hh, hc, State.decodeAccess_of hr ht hi]
  simp [ha, State.advance_eq]

section Store

variable {a npc : BitVec 48} {d : List Byte} (hd : loadWidths.contains d.length = true)
  (ha : (s.inject (pCOR n.val) 2).2.accessCode a.toNat d.length false = cOK)
include hd ha

/-- A store to register space goes to its page (R42). -/
theorem exec_programStore_register (hreg : regBase ≤ a.toNat) :
    exec (.programStore n x a d npc) s =
      .next ((s.inject (pCOR n.val) 2).2.storeReg n x a.toNat d npc.toNat).progress.settle := by
  change execProgramStore n x a d npc s = _
  rw [execProgramStore, wellFormed_of hd, State.decodeAccess_of hr ht hi]
  simp [ha, hreg, State.advance_eq]

/-- A store to memory that need not wait (R42, R518). -/
theorem exec_programStore_memory {u : State} (hmem : a.toNat < regBase)
    (hu : (s.inject (pCOR n.val) 2).2.storeMem n.val x.val a.toNat d npc.toNat = some u) :
    exec (.programStore n x a d npc) s = .next u.progress.settle := by
  change execProgramStore n x a d npc s = _
  rw [execProgramStore, wellFormed_of hd, State.decodeAccess_of hr ht hi]
  simp [ha, Nat.not_le.2 hmem, hu, State.advance_eq]

end Store

end Access

/-- Settles O24, row by row. -/
theorem programRows : Obligations.ProgramRows := by
  intro s n x hr ht hi t
  refine ⟨exec_halt hr ht hi, fun a npc k => exec_programLoad hr ht hi, fun a npc d hd ha => ⟨?_, fun u => ?_⟩⟩
  · exact exec_programStore_register hr ht hi hd ha
  · exact exec_programStore_memory hr ht hi hd ha

end Sys2Proof.Machine
end

section
/-! SUPPORT. The proofs of the statements about the canonical form: every command that answers a next state answers one in
canonical form, and in that form equal contents are equal data (R51, R236). -/

namespace Sys2Proof.Machine

/-! ## How the shared operations answer -/

theorem Settles.writeRow (s : State) (page off : Nat) (v : Word) (src : Src) : Settles (s.writeRow page off v src) := by
  cases src with
  | host => exact .ite (.advance _) (.done _)
  | program n x => exact .happens _ _
  | keyhole => exact .advance _

theorem Settles.servePacket (s : State) (c : Instr) (p : Packet) (a n : Nat) (cls : Option Nat) (now : State → Option State) :
    Settles (s.servePacket c p a n cls now) := by
  dsimp only [State.servePacket]
  split
  · exact .fault _
  · exact .happens _ _

theorem Settles.request (s : State) (by_ : Requester) (c : Instr) (a n : Nat) (cls : Option Nat) (now : Option State) :
    Settles (s.request by_ c a n cls now) := by
  unfold State.request
  refine .ite ?_ ?_ <;> split
  · exact .fault _
  · exact .happens _ _
  · exact .fault _
  · exact .happens _ _

theorem Settles.arrives (s : State) (p qpn n : Nat) (f : State → State) : Settles (s.arrives p qpn n f) :=
  .ite (.done _) (.ite (.advance _) (.done _))

theorem Settles.decodeAccess (s : State) (n x : Nat) {f : State → Res} (h : ∀ t, Settles (f t)) : Settles (s.decodeAccess n x f) :=
  .ite (.fault _) (.ite (.done _) (.ite (.advance _) (h _)))

theorem Settles.failIvr (s : State) (i : Nat) : Settles (s.failIvr i) := .occurs _ _

theorem Settles.issueTxn (s : State) (own : Nat) (lines : List Nat) (i : Issue) : Settles (s.issueTxn own lines i) :=
  .wellFormed _ (.issue _ _ _ _ _ _ _)

theorem Settles.issueSync (s : State) (own : Nat) (i : Issue) : Settles (s.issueSync own i) := .wellFormed _ (.issue _ _ _ _ _ _ _)

theorem Settles.issueColl (s : State) (own : Nat) (i : Issue) : Settles (s.issueColl own i) := .wellFormed _ (.issue _ _ _ _ _ _ _)

theorem Settles.issueDma (s : State) (own : Nat) (i : Issue) : Settles (s.issueDma own i) := .wellFormed _ (.issue _ _ _ _ _ _ _)

theorem Settles.issueQnt (s : State) (own : Nat) (i : Issue) : Settles (s.issueQnt own i) := .wellFormed _ (.issueGen _ _ _ _ _)

theorem Settles.issueVec (s : State) (own : Nat) (i : Issue) : Settles (s.issueVec own i) := .wellFormed _ (.issueGen _ _ _ _ _)

/-- An instruction whose demand does not fit waits for its envelope, once (R440). -/
theorem Settles.awaits (s : State) (n x : Nat) (i : Ins) :
    Settles (if s.waitsAlready n x i.seq then .fault .notEnabled else (s.waitEnvelope n x i.seq).done) :=
  .ite (.fault _) (.done _)

/-! ## The rows of bring-up and links -/

theorem Settles.stageS3 (ms : Nat) (noVolt : Option (Fin 36)) (s : State) : Settles (execStageS3 ms noVolt s) := by
  dsimp only [execStageS3]
  split
  · exact .failIvr _ _
  · exact .occurs _ _
  · exact .occurs _ _

theorem Settles.startTick (port : Option PortId) (s : State) : Settles (execStartTick port s) := by
  cases port with
  | none => exact .occurs _ _
  | some p => exact .occurs _ _

theorem Settles.handshakeTimeout (u : HsUnit) (s : State) : Settles (execHandshakeTimeout u s) := by
  cases u with
  | core n => exact .happens _ _
  | fabric die cl => exact .happens _ _

theorem Settles.wake (w : WakeMsg) (s : State) : Settles (execWake w s) := by
  refine .ite (.happens _ _) ?_
  split
  · exact .fault _
  · exact .happens _ _

/-! ## The rows of the engines -/

theorem Settles.runRelease (core : CoreId) (ctx : CtxId) (s : State) : Settles (execRunRelease core ctx s) := by
  dsimp only [execRunRelease]
  split
  · exact .fault _
  · split
    · exact .advance _
    · exact .fault _
    · refine .ite (.fault _) (.ite (.awaits _ _ _ _) (.ite (.advance _) ?_))
      split
      · exact .advance _
      · exact .advance _

theorem Settles.runEnd (core : CoreId) (ctx : CtxId) (s : State) : Settles (execRunEnd core ctx s) := by
  dsimp only [execRunEnd]
  split
  · exact .fault _
  · split
    · exact .happens _ _
    · exact .happens _ _

theorem Settles.poisonedLine (core : CoreId) (ctx : CtxId) (line : Fin 65536) (s : State) :
    Settles (execPoisonedLine core ctx line s) := by
  dsimp only [execPoisonedLine]
  split
  · exact .happens _ _
  · exact .happens _ _

theorem Settles.qntRelease (core : CoreId) (ctx : CtxId) (s : State) : Settles (execQntRelease core ctx s) := by
  dsimp only [execQntRelease]
  split
  · exact .fault _
  · split
    · exact .advance _
    · refine .ite (.fault _) (.ite (.advance _) ?_)
      split
      · exact .advance _
      · exact .ite (.advance _) (.ite (.awaits _ _ _ _) (.ite (.advance _) (.advance _)))

theorem Settles.qntComplete (core : CoreId) (s : State) : Settles (execQntComplete core s) := by
  dsimp only [execQntComplete]
  split
  · exact .fault _
  · refine .ite (.happens _ _) ?_
    split
    · exact .fault _
    · refine .ite (.fault _) ?_
      split
      · exact .happens _ _
      · exact .happens _ _

theorem Settles.vecRelease (core : CoreId) (ctx : CtxId) (s : State) : Settles (execVecRelease core ctx s) := by
  dsimp only [execVecRelease]
  split
  · exact .fault _
  · split
    · exact .advance _
    · refine .ite (.fault _) (.ite (.advance _) ?_)
      split
      · exact .advance _
      · exact .ite (.awaits _ _ _ _) (.ite (.advance _) (.advance _))

theorem Settles.vecComplete (core : CoreId) (s : State) : Settles (execVecComplete core s) := by
  dsimp only [execVecComplete]
  split
  · exact .fault _
  · refine .ite (.fault _) ?_
    split
    · exact .happens _ _
    · exact .happens _ _

theorem Settles.dmaLineRequest (core : CoreId) (ctx : CtxId) (s : State) : Settles (execDmaLineRequest core ctx s) := by
  dsimp only [execDmaLineRequest]
  refine .ite (.fault _) ?_
  split
  · refine .ite (.fault _) ?_
    split
    · exact .fault _
    · exact .advance _
  · split
    · exact .fault _
    · refine .ite (.fault _) (.ite (.awaits _ _ _ _) (.ite (.advance _) ?_))
      split
      · exact .fault _
      · exact .advance _

/-! ## The rows of programs, memory and collectives -/

theorem Settles.programLoad (core : CoreId) (ctx : CtxId) (addr : BitVec 48) (bytes : Nat) (npc : BitVec 48) (s : State) :
    Settles (execProgramLoad core ctx addr bytes npc s) :=
  .wellFormed _ (.ite (.fault _) (.decodeAccess _ _ _ fun _ => .ite (.advance _) (.advance _)))

theorem Settles.programStore (core : CoreId) (ctx : CtxId) (addr : BitVec 48) (data : List Byte) (npc : BitVec 48) (s : State) :
    Settles (execProgramStore core ctx addr data npc s) := by
  refine .wellFormed _ (.decodeAccess _ _ _ fun t => .ite (.advance _) (.ite (.advance _) ?_))
  split
  · exact .fault _
  · exact .advance _

theorem Settles.taggedWrite (core : CoreId) (ctx : CtxId) (addr : BitVec 48) (data : List Byte) (s : State) :
    Settles (execTaggedWrite core ctx addr data s) := by
  refine .wellFormed _ ?_
  split
  · exact .fault _
  · split
    · exact .fault _
    · exact .happens _ _

theorem Settles.retrainTrained (stack : StackId) (us : Nat) (s : State) : Settles (execRetrainTrained stack us s) := by
  dsimp only [execRetrainTrained]
  split
  · exact .fault _
  · exact .wellFormed _ (.happens _ _)

theorem Settles.collectiveStart (die : DieId) (axis : AxisId) (s : State) : Settles (execCollectiveStart die axis s) := by
  dsimp only [execCollectiveStart]
  split
  · exact .happens _ _
  · exact .happens _ _

/-! ## The rows of host queues and host Ethernet -/

theorem Settles.rdmaWrite (port : EthId) (qpn : Nat) (rkey : BitVec 32) (addr : BitVec 48) (data : List Byte) (s : State) :
    Settles (execRdmaWrite port qpn rkey addr data s) := by
  refine .ite (.done _) (.ite (.done _) (.ite (.advance _) ?_))
  split
  · exact .fault _
  · exact .advance _

theorem Settles.cmRequest (port : EthId) (ip : BitVec 128) (req : CmReq) (s : State) : Settles (execCmRequest port ip req s) :=
  .wellFormed _ (.ite (.done _) (.ite (.done _) (.ite (.advance _) (.ite (.done _) (.ite (.fault _) (.advance _))))))

theorem Settles.rdmaResponse (port : EthId) (qpn : Nat) (r : RdmaResp) (s : State) : Settles (execRdmaResponse port qpn r s) := by
  refine .ite (.done _) (.ite (.done _) ?_)
  split
  · exact .fault _
  · exact .advance _

theorem Settles.ethFcsErr (port : EthId) (kind : EthErr) (s : State) : Settles (execEthFcsErr port kind s) := by
  refine .ite (.done _) ?_
  cases kind with
  | fcs => exact .done _
  | fecUncorrectable => exact .advance _

/-! ## Every command -/

/-- Whatever next state a command answers has been put in canonical form: rows that the state enables, rows that a sender brings,
and rows that the state enables by what it holds. -/
theorem Settles.exec (c : Instr) (s : State) : Settles (exec c s) := by
  cases c with
  | powerGood | resetN | strapSample | stageS1 | ucieTrainTimeout | hbmTrainTimeout | crossingFilled | datapathRelease
  | crossingTimeout | laneLock | laneLockTimeout | trainingRecord | linkUp | linkAck | linkNak | replayTimeout | creditReturn
  | cancel | lendOffer
  | rateRecover | rampTokenGrant | envHoldExpiry | fatalHoldExpiry | frz | khSessionTimeout | vstbyGood | selfRefreshReturn =>
    exact .occurs _ _
  | pwrgoodFall | vstbyLoss | vinUv | vinOv | ivrOc | powerStopClear | scrubRead | severityPoll | phyDriftEval | retrainForced
  | fencedRetry | verdictReductionComplete | bar | barTimeout | commandFetch | ethLinkUp | issueParity | fabricParity
  | ucieRetryExhausted | crossingOverflow | sequencerWatchdog | mscWdog | res | ethLinkDown =>
    exact .happens _ _
  | shutterN | smbusReadWord => exact .done _
  | recoveryDatagram | linkPacketReceive | mgmt => exact .wellFormed _ (.occurs _ _)
  | sync | ack | nak | coll | paceWindow | powerWindow | thermalSample => exact .wellFormed _ (.happens _ _)
  | torRetrainReq | synSelWrite | retrainReq | maint | retire | resolve | stepEnd | verdictSet | evalStart | evalEnd | doorbell
  | bootGo | warm | coreReset | retireCore | freeze | secStage | secVerify | activate | confirm | burn =>
    exact .serveRow _ _ _ _ _
  | synHostAdd | synHostPut | synHostRelease | synValueWrite =>
    dsimp only [Machine.exec, execSynHostAdd, execSynHostPut, execSynHostRelease, execSynValueWrite]
    exact .serveRow _ _ _ _ _
  | queueEnable | queueDisable => exact .wellFormed _ (.serveRow _ _ _ _ _)
  | ctlEnable | ctlCheck | ctlDisable | evtStatusClear | evtMaskWrite | inject | registerWrite => exact .writeRow _ _ _ _ _
  | injAllowClear => exact .wellFormed _ (.writeRow _ _ _ _ _)
  | tsig | twait | pput | ptake | sown | sdrop => exact .issueSync _ _ _
  | vadd | vsub | vmul | vfma | vdiv | vmax | vmin | vconv | vexp | vrcp | vrsq | vlog | vrsum | vrdot | vrmax | vrmin | lutb | vdrain
  | vopt | vdice =>
    exact .issueVec _ _ _
  | quant | qdrain => exact .issueQnt _ _ _
  | dcopy | datom => exact .issueDma _ _ _
  | txb | txo | txc | txa | txe => exact .issueTxn _ _ _ _
  | allreduce | reducescatter | allgather | broadcast => exact .issueColl _ _ _
  | matrixInstruction => exact .wellFormed _ (.issueGen _ _ _ _ _)
  | nop | negotiate | unload | start | stop | preempt | resume | stepCommit | attest =>
    dsimp only [Machine.exec, execNop, execNegotiate, execUnload, execStart, execStop, execPreempt, execResume, execStepCommit,
      execAttest]
    exact .runCmd _ _ _ _ _ _
  | load | xfer | snapshot => exact .ite (.runCmd _ _ _ _ _ _) (.fault _)
  | wr | rd | aop =>
    dsimp only [Machine.exec, execWr, execRd, execAop]
    exact .wellFormed _ (.servePacket _ _ _ _ _ _ _)
  | memoryWrite | memoryAtomic =>
    dsimp only [Machine.exec, execMemoryWrite, execMemoryAtomic]
    exact .wellFormed _ (.request _ _ _ _ _ _ _)
  | memoryRead =>
    dsimp only [Machine.exec, execMemoryRead]
    exact .wellFormed _ (.ite (.request _ _ _ _ _ _ _) (.fault _))
  | sendReject | rdmaAtomicReject | cnp | ecnMark =>
    dsimp only [Machine.exec, execSendReject, execRdmaAtomicReject, execCnp, execEcnMark]
    exact .arrives _ _ _ _ _
  | rdmaRead =>
    dsimp only [Machine.exec, execRdmaRead]
    exact .ite (.fault _) (.arrives _ _ _ _ _)
  | halt =>
    dsimp only [Machine.exec, execHalt]
    exact .decodeAccess _ _ _ fun _ => .advance _
  | linkSignalDetect => exact .ite (.occurs _ _) (.occurs _ _)
  | stageS2 => exact .ite (.occurs _ _) (.occurs _ _)
  | khOpen | khRead | khWrite => exact .wellFormed _ (.ite (.done _) (.ite (.done _) (.done _)))
  | khReset | khClose => exact .ite (.done _) (.ite (.done _) (.done _))
  | khResume => exact .ite (.done _) (.ite (.done _) (.ite (.done _) (.advance _)))
  | pfcPause => exact .ite (.done _) (.advance _)
  | stageS3 => exact .stageS3 _ _ _
  | startTick => exact .startTick _ _
  | handshakeTimeout => exact .handshakeTimeout _ _
  | wake => exact .wake _ _
  | runRelease => exact .runRelease _ _ _
  | runEnd => exact .runEnd _ _ _
  | poisonedLine => exact .poisonedLine _ _ _ _
  | qntRelease => exact .qntRelease _ _ _
  | qntComplete => exact .qntComplete _ _
  | vecRelease => exact .vecRelease _ _ _
  | vecComplete => exact .vecComplete _ _
  | dmaLineRequest => exact .dmaLineRequest _ _ _
  | programLoad => exact .programLoad _ _ _ _ _ _
  | programStore => exact .programStore _ _ _ _ _ _
  | taggedWrite => exact .taggedWrite _ _ _ _ _
  | retrainTrained => exact .retrainTrained _ _ _
  | collectiveStart => exact .collectiveStart _ _ _
  | rdmaWrite => exact .rdmaWrite _ _ _ _ _ _
  | cmRequest => exact .cmRequest _ _ _ _
  | rdmaResponse => exact .rdmaResponse _ _ _ _
  | ethFcsErr => exact .ethFcsErr _ _ _
  | packetDepart | watchRequest | engineSignal | roceRetryTimeout | stageComplete =>
    dsimp only [Machine.exec, execPacketDepart, execWatchRequest, execEngineSignal, execRoceRetryTimeout, execStageComplete]
    split
    · exact .fault _
    · exact .occurs _ _
  | watchTimeout | retrainHoldTimeout | retireDone | commitWindowClose | collectiveComplete | collectiveTimeout | stepLogAck
  | barrierRelease | qpErr | rampEnd | recordWriteAck | stationaryUnpin | taggedLineWriteback | dmaComplete | xferComplete
  | pinRelease =>
    dsimp only [Machine.exec, execWatchTimeout, execRetrainHoldTimeout, execRetireDone, execCommitWindowClose, execCollectiveComplete,
      execCollectiveTimeout, execStepLogAck, execBarrierRelease, execQpErr, execRampEnd, execRecordWriteAck, execStationaryUnpin,
      execTaggedLineWriteback, execDmaComplete, execXferComplete, execPinRelease]
    split
    · exact .fault _
    · exact .happens _ _
  | packetForward | rdata | aresp =>
    dsimp only [Machine.exec, execPacketForward, execRdata, execAresp]
    refine .wellFormed _ ?_
    split
    · exact .fault _
    · exact .happens _ _
  | wcbSectorLeave =>
    dsimp only [Machine.exec, execWcbSectorLeave]
    split
    · exact .fault _
    · exact .advance _

/-- Settles O3: a next state of a command has been put in canonical form (`State.settle`), and an idle step changes nothing. -/
theorem stepKeepsCanonicalForm : Obligations.StepKeepsCanonicalForm := by
  intro s t hs ht
  unfold step at ht
  split at ht
  · cases ht
    exact hs
  · exact (Settles.exec _ _).inv ht

/-! ## In canonical form equal contents are equal data -/

/-- Tables with rising keys that list the same are the same. -/
theorem Tab.eq_of_find {α : Type} {t u : Tab α} {lo lo' : Nat} (ht : Tab.sortedFrom lo t = true) (hu : Tab.sortedFrom lo' u = true)
    (h : ∀ k, Tab.find t k = Tab.find u k) : t = u := by
  induction t generalizing u lo lo' with
  | nil =>
    cases u with
    | nil => rfl
    | cons e q =>
      obtain ⟨j, w⟩ := e
      simpa [Tab.find_cons] using h j
  | cons e r ih =>
    obtain ⟨i, v⟩ := e
    cases u with
    | nil => simpa [Tab.find_cons] using h i
    | cons e q =>
      obtain ⟨j, w⟩ := e
      simp only [Tab.sortedFrom, Bool.and_eq_true, decide_eq_true_eq] at ht hu
      have hi := h i
      have hj := h j
      simp only [Tab.find_cons, if_true] at hi hj
      have hij : i = j := by
        rcases Nat.lt_trichotomy i j with hlt | heq | hgt
        · rw [if_neg (by omega), Tab.find_below hu.2 (by omega)] at hi
          cases hi
        · exact heq
        · rw [if_neg (by omega), Tab.find_below ht.2 (by omega)] at hj
          cases hj
      subst hij
      rw [if_pos rfl, Option.some.injEq] at hi
      have hrest : r = q := ih ht.2 hu.2 fun k => by
        rcases Nat.lt_or_ge i k with hlt | hge
        · simpa [Tab.find_cons, Nat.ne_of_lt hlt] using h k
        · rw [Tab.find_below ht.2 (by omega), Tab.find_below hu.2 (by omega)]
      rw [hi, hrest]

/-- What a canonical table lists does not read as it would unlisted. -/
theorem Tab.listed_of_wf {α : Type} {isD : Nat → α → Bool} {t : Tab α} (ht : Tab.wf isD t = true) {k : Nat} {v : α}
    (h : Tab.find t k = some v) : isD k v = false := by
  simp only [Tab.wf, Bool.and_eq_true] at ht
  obtain ⟨-, ha⟩ := ht
  induction t with
  | nil => cases h
  | cons e r ih =>
    simp only [List.all_cons, Bool.and_eq_true] at ha
    rw [Tab.find_cons] at h
    split at h
    · next hk =>
      cases h
      simpa [hk] using ha.1
    · exact ih h ha.2

/-- Canonical tables that read alike are the same; `d k` is what an unlisted key `k` reads as. -/
theorem Tab.eq_of_get {α : Type} {isD : Nat → α → Bool} {d : Nat → α} (hd : ∀ k, isD k (d k) = true) {t u : Tab α}
    (ht : Tab.wf isD t = true) (hu : Tab.wf isD u = true) (h : ∀ k, Tab.get t (d k) k = Tab.get u (d k) k) : t = u := by
  refine Tab.eq_of_find (Tab.wf_sorted ht) (Tab.wf_sorted hu) fun k => ?_
  have hne : ∀ {w : Tab α}, Tab.wf isD w = true → Tab.find w k ≠ some (d k) := fun hw e => by
    simpa [hd k] using Tab.listed_of_wf hw e
  have hk : (Tab.find t k).getD (d k) = (Tab.find u k).getD (d k) := h k
  cases ft : Tab.find t k with
  | none =>
    cases fu : Tab.find u k with
    | none => rfl
    | some w =>
      rw [ft, fu] at hk
      exact absurd (fu.trans (congrArg some hk.symm)) (hne hu)
  | some v =>
    cases fu : Tab.find u k with
    | none =>
      rw [ft, fu] at hk
      exact absurd (ft.trans (congrArg some hk)) (hne ht)
    | some w =>
      rw [ft, fu] at hk
      exact congrArg some hk

/-- Settles O4: both tables are canonical, so what they read determines them. -/
theorem canonicalFormIsUnique : Obligations.CanonicalFormIsUnique := by
  intro s t hs ht
  obtain ⟨hsr, -, hst⟩ := hs
  obtain ⟨htr, -, htt⟩ := ht
  obtain ⟨-, -, hso, -⟩ := Tables.wf_parts hst
  obtain ⟨-, -, hto, -⟩ := Tables.wf_parts htt
  exact ⟨Tab.eq_of_get (fun k => by simp [isResetVal]) hsr htr, Tab.eq_of_get (fun _ => by simp [isFresh]) hso hto⟩

end Sys2Proof.Machine
end

section
/-! SUPPORT. The proofs of the statements about register writes: how a page answers one, the enable check and injection
(R51 to R58). -/

namespace Sys2Proof.Machine

/-! ## Register writes: the rows (R51, R54) -/

/-- A write that reaches the package completes, whoever makes it. -/
theorem State.writeRow_of_reaches {s : State} {src : Src} (h : s.reaches src = true) (page off : Nat) (v : Word) :
    s.writeRow page off v src = .next (s.writeReg page off v src).progress.settle := by
  cases src with
  | host => exact if_pos h
  | program n x => exact happens_of h _
  | keyhole => rfl

/-- Settles O5: each row is a register write, and it reaches the package. -/
theorem registerRowsComplete : Obligations.RegisterRowsComplete := by
  intro s p v src h
  have row : ∀ page off w, s.writeRow page off w src = .next (s.writeReg page off w src).progress.settle :=
    State.writeRow_of_reaches h
  refine ⟨row _ _ _, row _ _ _, row _ _ _, row _ _ _, row _ _ _, row _ _ _, fun hv => ?_, fun off => row _ _ _⟩
  change wellFormed (!bitAt v 0) (s.writeRow (pRAS 0) 0x100 v src) = _
  rw [wellFormed_of (by rw [hv]; rfl), row]

/-! ## How a page answers a write -/

/-- Every listed page has CTL. -/
theorem findReg_ctl (c : Cls) (i : Nat) : (findReg c i 0x018).isSome = true := by
  simp [findReg, headerRegs, ro, Reg.holds]

section Page

variable {s : State} {page off i : Nat} {c : Cls} {v : Word} {src : Src} (hc : classify page = some (c, i))
include hc

theorem State.pageCode_reserved (hr : findReg c i off = none) : s.pageCode page off = some cRANGE := by
  simp [State.pageCode, hc, hr]

/-- A register of the header answers whether or not the block is powered (R418). -/
theorem State.pageCode_header (hr : (findReg c i off).isSome = true) (ho : off < 0x100) : s.pageCode page off = none := by
  simp [State.pageCode, hc, Option.isSome_iff_ne_none.1 hr, Nat.not_le.2 ho]

theorem pageClass_of_classify : pageClass page = c.code := by simp [pageClass, hc]

theorem State.refuseWrite_host (code : Nat) : s.refuseWrite page off code .host = s.setReason page off code 3 := by
  simp [State.refuseWrite, hc]

theorem State.refuseWrite_keyhole (code : Nat) : s.refuseWrite page off code .keyhole = s.setReason page off code 3 := by
  simp [State.refuseWrite, hc]

theorem State.refuseWrite_program (code : Nat) (n : CoreId) (x : CtxId) : s.refuseWrite page off code (.program n x) =
    (s.setReason page off code 3).faultStore n.val x.val c.code code := by
  simp [State.refuseWrite, hc, pageClass_of_classify hc]

omit hc in
/-- Only a refused doorbell raises an event; any other write is what its page answers. -/
theorem State.writeReg_eq (h : page ≠ pCFE1 ∨ off < 0x100 ∨ s.pageCode page off ≠ none) :
    s.writeReg page off v src = s.answerWrite page off src (s.serveWrite page off v) := by
  have hbell : (decide (page = pCFE1) && (s.pageCode page off).isNone && (s.serveWrite page off v).1 != cOK &&
      decide (0x100 ≤ off)) = false := by
    rcases h with hp | ho | hn
    · simp [hp]
    · simp [ho]
    · simp [hn]
  unfold State.writeReg
  dsimp only
  rw [hbell]
  rfl

/-- A write to a reserved offset is refused with RANGE (R56). -/
theorem State.writeReg_reserved (hr : findReg c i off = none) : s.writeReg page off v src = s.refuseWrite page off cRANGE src := by
  have hp : s.pageCode page off = some cRANGE := State.pageCode_reserved hc hr
  rw [State.writeReg_eq (.inr (.inr (by simp [hp]))), answerWrite_page src hp]

/-- A write to a register of the header that its page accepts. -/
theorem State.writeReg_header (hr : (findReg c i off).isSome = true) (ho : off < 0x100) {t : State}
    (h : s.serveWrite page off v = (cOK, t)) : s.writeReg page off v src = t := by
  rw [State.writeReg_eq (.inr (.inl ho)), h, answerWrite_ok src (State.pageCode_header hc hr ho) rfl]

/-- A write to a register of the header that its page refuses. -/
theorem State.writeReg_header_refused (hr : (findReg c i off).isSome = true) (ho : off < 0x100) {code : Nat} {t : State}
    (h : s.serveWrite page off v = (code, t)) (hcode : code ≠ cOK) :
    s.writeReg page off v src = s.refuseWrite page off code src := by
  rw [State.writeReg_eq (.inr (.inl ho)), h, answerWrite_refused src (State.pageCode_header hc hr ho) hcode]

theorem State.serveWrite_ctl : s.serveWrite page 0x018 v = s.ctlWrite c i page v := by
  obtain ⟨r, hr⟩ := Option.isSome_iff_exists.1 (findReg_ctl c i)
  simp only [State.serveWrite, hc, hr]

theorem State.serveWrite_status (hr : (findReg c i 0x030).isSome = true) :
    s.serveWrite page 0x030 v = (cOK, s.clearEvents page v) := by
  obtain ⟨r, hr⟩ := Option.isSome_iff_exists.1 hr
  simp only [State.serveWrite, hc, hr]

theorem State.serveWrite_mask (hr : (findReg c i 0x040).isSome = true) :
    s.serveWrite page 0x040 v = (cOK, s.maskWrite c i page v) := by
  obtain ⟨r, hr⟩ := Option.isSome_iff_exists.1 hr
  simp only [State.serveWrite, hc, hr]

theorem State.serveWrite_inject (hr : (findReg c i 0x048).isSome = true) :
    s.serveWrite page 0x048 v = s.injectWrite c i page v := by
  obtain ⟨r, hr⟩ := Option.isSome_iff_exists.1 hr
  simp only [State.serveWrite, hc, hr]

theorem State.writeReg_ctl {t : State} (h : s.ctlWrite c i page v = (cOK, t)) : s.writeReg page 0x018 v src = t :=
  State.writeReg_header hc (findReg_ctl c i) (by decide) ((State.serveWrite_ctl hc).trans h)

theorem State.writeReg_ctl_refused {code : Nat} {t : State} (h : s.ctlWrite c i page v = (code, t)) (hcode : code ≠ cOK) :
    s.writeReg page 0x018 v src = s.refuseWrite page 0x018 code src :=
  State.writeReg_header_refused hc (findReg_ctl c i) (by decide) ((State.serveWrite_ctl hc).trans h) hcode

end Page

/-! ## Reserved offsets and refused writes (R54, R56) -/

/-- Settles O6: the refusal is the page's, before any condition of the block. -/
theorem reservedOffsets : Obligations.ReservedOffsets := by
  intro s page off c i v hc hr
  refine ⟨by simp only [State.readReg, hc, hr], ?_, ?_, fun n x => ?_⟩
  · rw [State.writeReg_reserved hc hr, State.refuseWrite_host hc]
  · rw [State.writeReg_reserved hc hr, State.refuseWrite_keyhole hc]
  · rw [State.writeReg_reserved hc hr, State.refuseWrite_program hc]

/-- Recording an outcome writes REASON of the page. -/
theorem State.reg_setReason_self {s : State} (h : Tab.sortedFrom 0 s.regs = true) (page off code src : Nat) :
    (s.setReason page off code src).reg page 0x028 = BitVec.ofNat 64 (off * 2 ^ 32 + src * 2 ^ 24 + code) := by
  rw [State.setReason, State.reg_setReg_self h]

@[simp] theorem State.setReason_mem (s : State) (page off code src : Nat) : (s.setReason page off code src).mem = s.mem := by
  rw [State.setReason, State.setReg_mem]

/-- Recording an outcome leaves every other register. -/
theorem State.reg_setReason_ne (s : State) (page off code src : Nat) {p o : Nat} (ho : o < 4096) (h : (p, o) ≠ (page, 0x028)) :
    (s.setReason page off code src).reg p o = s.reg p o := by
  rw [State.setReason, State.reg_setReg_ne]
  rw [Ne, regKey_inj ho (by decide), ← Prod.mk.injEq]
  exact h

/-- Settles O7: a refused write of the host is the record in REASON and nothing else. -/
theorem refusedWriteChangesOnlyReason : Obligations.RefusedWriteChangesOnlyReason := by
  intro s page off v hwf hp _ hlisted hpage hcode t
  obtain ⟨⟨c, i⟩, hc⟩ := Option.isSome_iff_exists.1 hlisted
  have ht : t = s.setReason page off (s.serveWrite page off v).1 3 := by
    rw [← State.refuseWrite_host hc, ← answerWrite_refused .host hpage hcode]
    exact State.writeReg_eq (.inl hp)
  rw [ht]
  exact ⟨State.reg_setReason_self (Regs.sorted_of_wf hwf) _ _ _ _, fun p o ho hne => State.reg_setReason_ne _ _ _ _ _ ho hne,
    State.setReason_mem _ _ _ _ _⟩

/-! ## The event registers (R53, R65) -/

/-- An unmasking that shows no set event reports nothing. -/
theorem State.maskWrite_of_hidden {s : State} {c : Cls} {i page : Nat} {v : Word}
    (h : s.reg page 0x030 &&& s.reg page 0x040 &&& ~~~v = 0) :
    s.maskWrite c i page v = s.setReg page 0x040 (v &&& BitVec.ofNat 64 (2 ^ eventBits c i - 1)) := by
  have hnone : (List.range (eventBits c i)).filter (bitAt 0) = [] := by simp [bitAt]
  unfold State.maskWrite
  dsimp only
  rw [h, hnone]
  rfl

/-- Settles O13: both writes are served by the header. -/
theorem eventRegistersWritten : Obligations.EventRegistersWritten := by
  intro s page c i v _ hc hstatus hmask
  refine ⟨State.writeReg_header hc hstatus (by decide) (State.serveWrite_status hc hstatus), fun hhidden => ?_⟩
  rw [State.writeReg_header hc hmask (by decide) (State.serveWrite_mask hc hmask), State.maskWrite_of_hidden hhidden]

/-! ## The enable check (R58) -/

theorem State.enabled_setReg_ne (s : State) {page p o : Nat} (v : Word) (h : regKey page 0x018 ≠ regKey p o) :
    (s.setReg p o v).enabled page = s.enabled page := by
  rw [State.enabled, State.reg_setReg_ne s v h, State.enabled]

/-- On a held or free page ENABLE reads as it is stored (R62). -/
theorem State.enableReads_of_kind (s : State) {c : Cls} (h : 2 ≤ c.enableKind) (page : Nat) :
    s.enableReads c page = s.enabled page := by
  unfold State.enableReads
  split
  · omega
  · omega
  · rfl

theorem State.setReason_enabled (s : State) (page off code src : Nat) :
    (s.setReason page off code src).enabled page = s.enabled page := by
  rw [State.setReason, State.enabled_setReg_ne]
  rw [Ne, regKey_inj (by decide) (by decide)]
  simp

/-- Enabling a page writes ENABLE, and ETH.LINK of an Ethernet port; what else it does is not in registers. -/
theorem State.onEnable_reg (s : State) (c : Cls) (i page : Nat) {p o : Nat} (ho : o < 4096) (h : o ≠ 0x108) :
    (s.onEnable c i page).reg p o = (s.setRf page 0x018 0 0 1).reg p o := by
  cases c with
  | llc =>
    dsimp only [State.onEnable]
    split <;> rfl
  | eth =>
    dsimp only [State.onEnable]
    rw [State.reg_setReg_ne]
    rw [Ne, regKey_inj ho (by decide)]
    exact fun hk => h hk.2
  | sht | dir | cfe | mxa | cor | qnt | vec | syn | txn | mem | tor | rtr | col | rce | pwr | thm | ras | sec | gen => rfl

theorem State.onEnable_enabled {s : State} (h : Tab.sortedFrom 0 s.regs = true) (c : Cls) (i page : Nat) :
    (s.onEnable c i page).enabled page = true := by
  rw [State.enabled, State.onEnable_reg s c i page (by decide) (by decide), State.reg_setRf_self h, bitAt_fld,
    fld_setFld_self _ _ (by decide) (by decide)]
  rfl

theorem State.onEnable_reason (s : State) (c : Cls) (i page : Nat) : (s.onEnable c i page).reg page 0x028 = s.reg page 0x028 := by
  rw [State.onEnable_reg s c i page (by decide) (by decide), State.reg_setRf_ne]
  rw [Ne, regKey_inj (by decide) (by decide)]
  simp

theorem State.runCheck_passed {s : State} {c : Cls} {i page : Nat} (h : s.enableCheck c i page = none) (src : Nat) :
    s.runCheck c i page src = (true, s.setReason page 0 cOK src) := by
  rw [State.runCheck, h]

theorem State.runCheck_failed {s : State} {c : Cls} {i page : Nat} {f : Nat × Nat} (h : s.enableCheck c i page = some f) (src : Nat) :
    s.runCheck c i page src = (false, s.setReason page f.2 f.1 src) := by
  rw [State.runCheck, h]

section Ctl

variable {s : State} {c : Cls} {i page : Nat} (hk : 2 ≤ c.enableKind)
include hk

/-- A write with CHECK = 1 runs the enable check only. -/
theorem State.ctlWrite_check : s.ctlWrite c i page 2 = (cOK, (s.runCheck c i page 2).2) := by
  rw [State.ctlWrite, if_neg (by omega), if_pos (by decide)]

/-- A write of ENABLE = 1 to an enabled page has no effect. -/
theorem State.ctlWrite_enabled (he : s.enabled page = true) : s.ctlWrite c i page 1 = (cOK, s) := by
  rw [State.ctlWrite, if_neg (by omega), if_neg (by decide), if_pos (by decide), if_pos (by rw [State.enableReads_of_kind s hk, he])]

/-- A write of ENABLE = 1 to a disabled page enables it where the check passes. -/
theorem State.ctlWrite_enable (he : s.enabled page = false) : s.ctlWrite c i page 1 =
    (cOK, if (s.runCheck c i page 1).1 then (s.runCheck c i page 1).2.onEnable c i page else (s.runCheck c i page 1).2) := by
  have hkind : (c.enableKind != 1) = true := by simp; omega
  rw [State.ctlWrite, if_neg (by omega), if_neg (by decide), if_pos (by decide),
    if_neg (by rw [State.enableReads_of_kind s hk, he]; decide)]
  dsimp only
  rw [hkind, Bool.and_true]

/-- A write of ENABLE = 0 to a page that may be disabled disables it. -/
theorem State.ctlWrite_disable (hb : c.enableKind = 2 → c ≠ .tor → s.jobBusy = false) :
    s.ctlWrite c i page 0 = (cOK, s.onDisable c i page) := by
  rw [State.ctlWrite, if_neg (by omega), if_neg (by decide), if_neg (by decide), if_neg (by omega), if_neg]
  rintro ⟨h2, htor, hbusy⟩
  rw [hb h2 htor] at hbusy
  cases hbusy

end Ctl

/-- Settles O8: the outcome of `State.runCheck` decides, and only a check that passed enables. -/
theorem enableCheckDecides : Obligations.EnableCheckDecides := by
  intro s page c i src hs hc hk
  have hsorted : Tab.sortedFrom 0 s.regs = true := Regs.sorted_of_wf hs.1
  refine ⟨fun he hpass => ?_, fun f he hfail => ?_, fun hpass => ?_, fun f hfail => ?_⟩
  · have h : s.writeReg page 0x018 1 src = (s.setReason page 0 cOK 1).onEnable c i page := by
      rw [State.writeReg_ctl hc (State.ctlWrite_enable hk he), State.runCheck_passed hpass]
      rfl
    rw [h]
    refine ⟨State.onEnable_enabled (State.sorted_setReg hsorted _ _ _) _ _ _, ?_⟩
    rw [State.onEnable_reason, State.reg_setReason_self hsorted]
    rfl
  · have h : s.writeReg page 0x018 1 src = s.setReason page f.2 f.1 1 := by
      rw [State.writeReg_ctl hc (State.ctlWrite_enable hk he), State.runCheck_failed hfail]
      rfl
    rw [h, State.setReason_enabled]
    exact ⟨rfl, he⟩
  · rw [State.writeReg_ctl hc (State.ctlWrite_check hk), State.runCheck_passed hpass]
  · rw [State.writeReg_ctl hc (State.ctlWrite_check hk), State.runCheck_failed hfail]

/-! ## Injection (R52, R459) -/

/-- A field that a mask leaves whole. -/
theorem fld_and_of_mask (v : Word) {m hi lo : Nat} (h64 : hi < 64) (h : lo ≤ hi)
    (hm : ∀ j ≤ hi, lo ≤ j → m.testBit j = true) :
    fld (v &&& BitVec.ofNat 64 m) hi lo = fld v hi lo := by
  unfold fld
  apply Nat.eq_of_testBit_eq
  intro j
  rw [Nat.testBit_mod_two_pow, Nat.testBit_mod_two_pow]
  by_cases hj : j < hi - lo + 1
  · have hbit : m.testBit (lo + j) = true := hm _ (by omega) (by omega)
    rw [BitVec.toNat_and, BitVec.toNat_ofNat, Nat.testBit_shiftRight, Nat.testBit_and, Nat.testBit_mod_two_pow, hbit,
      decide_eq_true (show lo + j < 64 by omega), Nat.testBit_shiftRight, Bool.and_true, Bool.and_true]
  · simp [hj]

/-- A write of INJECT that is refused for its value (R52). -/
def injectBad (c : Cls) (i : Nat) (v : Word) : Prop :=
  fld v 1 0 = 3 ∨ (fld v 1 0 = 2 ∧ fld v 39 16 = 0) ∨ (fld v 1 0 ≠ 0 ∧ injectPoint c i (fld v 15 8) = false)

theorem State.injectWrite_bad {s : State} {c : Cls} {i page : Nat} {v : Word} (h : injectBad c i v) :
    s.injectWrite c i page v = (cRANGE, s) := by
  rw [State.injectWrite]
  exact if_pos (by simpa [injectBad] using h)

theorem State.injectWrite_locked {s : State} {c : Cls} {i page : Nat} {v : Word} (h : ¬injectBad c i v) (hm : fld v 1 0 ≠ 0)
    (hl : bitAt (s.reg (pRAS 0) 0x100) 0 = false) : s.injectWrite c i page v = (cLOCKED, s) := by
  rw [State.injectWrite]
  exact (if_neg (by simpa [injectBad] using h)).trans (if_pos ⟨hm, by rw [hl]; rfl⟩)

/-- What a write of INJECT that is served stores: MODE, POINT and PERIOD, and whether anything is armed. -/
def State.injectStored (s : State) (page : Nat) (v : Word) : State :=
  { (s.setReg page 0x048 (v &&& BitVec.ofNat 64 (ones 39 8 + 3))).setReg page 0x050 (BitVec.ofNat 64 (b2n (fld v 1 0 != 0))) with
    inj := Tab.set s.inj 0 page 0 }

/-- A write with MODE 0 is never refused. -/
theorem State.injectWrite_off (s : State) {c : Cls} {i page : Nat} {v : Word} (h : fld v 1 0 = 0) :
    s.injectWrite c i page v = (cOK, s.injectStored page v) := by
  rw [State.injectWrite]
  exact (if_neg (by simp [h])).trans (if_neg (by simp [h]))

theorem State.injectStored_reg (s : State) (page : Nat) (v : Word) (p o : Nat) :
    (s.injectStored page v).reg p o = ((s.setReg page 0x048 (v &&& BitVec.ofNat 64 (ones 39 8 + 3))).setReg page 0x050
      (BitVec.ofNat 64 (b2n (fld v 1 0 != 0)))).reg p o := by
  unfold State.injectStored
  rfl

theorem State.injectStored_inject {s : State} (hs : Tab.sortedFrom 0 s.regs = true) (page : Nat) (v : Word) :
    (s.injectStored page v).reg page 0x048 = v &&& BitVec.ofNat 64 (ones 39 8 + 3) := by
  rw [State.injectStored_reg, State.reg_setReg_ne _ _ (by rw [Ne, regKey_inj (by decide) (by decide)]; simp), State.reg_setReg_self hs]

theorem State.injectStored_status {s : State} (hs : Tab.sortedFrom 0 s.regs = true) (page : Nat) (v : Word) :
    (s.injectStored page v).reg page 0x050 = BitVec.ofNat 64 (b2n (fld v 1 0 != 0)) := by
  rw [State.injectStored_reg, State.reg_setReg_self (State.sorted_setReg hs _ _ _)]

theorem State.injectStored_reason (s : State) (page : Nat) (v : Word) : (s.injectStored page v).reg page 0x028 = s.reg page 0x028 := by
  rw [State.injectStored_reg]
  rw [State.reg_setReg_ne _ _ (by rw [Ne, regKey_inj (by decide) (by decide)]; simp),
    State.reg_setReg_ne _ _ (by rw [Ne, regKey_inj (by decide) (by decide)]; simp)]

/-- An armed one-shot injection takes effect at the occurrence of its point: FIRED advances and ARMED is cleared (R459). -/
theorem State.inject_oneShot {s : State} {page pt : Nat} (hm : s.rf page 0x048 1 0 = 1) (hp : s.rf page 0x048 15 8 = pt)
    (ha : bitAt (s.reg page 0x050) 0 = true) :
    s.inject page pt = (true, (s.setRf page 0x050 0 0 0).setRf page 0x050 47 16 (s.rf page 0x050 47 16 + 1)) := by
  unfold State.rf at hm hp
  rw [State.inject]
  exact (if_neg (by simp [hm, hp, ha])).trans (if_pos hm)

/-- Settles O10: refusals in the order of `State.injectWrite`, what MODE 0 stores, and the one-shot arm of `State.inject`. -/
theorem injectWriteJudged : Obligations.InjectWriteJudged := by
  intro s page c i v src hs hc hr
  have hsorted : Tab.sortedFrom 0 s.regs = true := Regs.sorted_of_wf hs.1
  refine ⟨fun _ hbad => ?_, fun hm hgood hlocked => ?_, fun hm => ?_, fun pt hm hp ha => ?_⟩
  · exact State.writeReg_header_refused hc hr (by decide) ((State.serveWrite_inject hc hr).trans (State.injectWrite_bad hbad))
      (by decide)
  · exact State.writeReg_header_refused hc hr (by decide)
      ((State.serveWrite_inject hc hr).trans (State.injectWrite_locked hgood hm hlocked)) (by decide)
  · have h : s.writeReg page 0x048 v src = s.injectStored page v :=
      State.writeReg_header hc hr (by decide) ((State.serveWrite_inject hc hr).trans (State.injectWrite_off s hm))
    dsimp only
    rw [h, State.rf, State.rf, State.rf, State.injectStored_inject hsorted, State.injectStored_status hsorted]
    refine ⟨fld_and_of_mask v (by decide) (by decide) (by decide), fld_and_of_mask v (by decide) (by decide) (by decide), ?_, ?_,
      State.injectStored_reason s page v⟩
    · rw [fld_and_of_mask v (by decide) (by decide) (by decide)]
      exact hm
    · rw [hm]
      decide
  · rw [State.inject_oneShot hm hp ha]
    refine ⟨rfl, ?_⟩
    rw [State.reg_setRf_self (State.sorted_setRf hsorted _ _ _ _ _), State.reg_setRf_self hsorted, bitAt_fld,
      fld_setFld_below _ _ (by decide) (by decide) (by decide) (by decide), fld_setFld_self _ _ (by decide) (by decide)]
    rfl

end Sys2Proof.Machine
end

section
/-! SUPPORT. The proof of the statement about events (R65). EVT_STATUS and EVT_COUNT of a page other than those of the CFE and the
Shutter change when an event of the page is set, and not when it is reported or when its report triggers a freeze: what Laws/Raise.lean
says of the registers that no event writes, said of the two that each event of their own page does. -/

namespace Sys2Proof.Machine

/-- A register of no page that reports events of its own: reporting, and a freeze that a report triggers, leave it as it is. -/
structure Unreported (p o : Nat) : Prop where
  cfe : p ≠ pCFE
  sht : p ≠ pSHT
  lt : o < 4096
  frames : o ≠ 0x120
  retrain : o ≠ 0x140

section Unreported

variable {p o : Nat} (h : Unreported p o)
include h

theorem State.setReg_cfe_keeps (s : State) {o' : Nat} (ho' : o' < 4096) (v : Word) :
    State.regAt p o (s.setReg pCFE o' v) = State.regAt p o s :=
  State.setReg_at s v (by rw [Ne, regKey_inj h.lt ho']; exact fun e => h.cfe e.1)

theorem State.setReg_sht_keeps (s : State) {o' : Nat} (ho' : o' < 4096) (v : Word) :
    State.regAt p o (s.setReg pSHT o' v) = State.regAt p o s :=
  State.setReg_at s v (by rw [Ne, regKey_inj h.lt ho']; exact fun e => h.sht e.1)

theorem State.setReg_off_keeps (s : State) {p' o' : Nat} (ho' : o' < 4096) (hne : o ≠ o') (v : Word) :
    State.regAt p o (s.setReg p' o' v) = State.regAt p o s :=
  State.setReg_at s v (by rw [Ne, regKey_inj h.lt ho']; exact fun e => hne e.2)

theorem State.setEvtSeq_keeps (s : State) : State.regAt p o s.setEvtSeq = State.regAt p o s :=
  State.setReg_cfe_keeps h _ (by decide) _

theorem State.writeRec_keeps (s : State) (r : Rec) : State.regAt p o (s.writeRec r) = State.regAt p o s := by
  simp only [State.writeRec, State.withHcq_at, State.setRf, State.addReg, State.transmit]
  rw [State.setReg_cfe_keeps h _ (ringOff_lt _), State.setReg_off_keeps h _ (by decide) h.frames, State.emit_at, State.emit_at]

theorem State.flushFold_keeps (l : List Rec) (s : State) (k : List Rec) :
    State.regAt p o (l.foldl (fun (acc : State × List Rec) r =>
      if acc.1.ringReady r.queue then (acc.1.writeRec r, acc.2) else (acc.1, acc.2 ++ [r])) (s, k)).1 = State.regAt p o s := by
  induction l generalizing s k with
  | nil => rfl
  | cons r t ih =>
    simp only [List.foldl_cons]
    split
    · rw [ih, State.writeRec_keeps h]
    · rw [ih]

theorem State.flushRecs_keeps (s : State) : State.regAt p o s.flushRecs = State.regAt p o s := by
  simp only [State.flushRecs]
  rw [State.setEvtSeq_keeps h, State.withHcq_at, State.flushFold_keeps h]

theorem State.queueEvent_keeps (s : State) (page bit : Nat) : State.regAt p o (s.queueEvent page bit).1 = State.regAt p o s := by
  have hseq : ∀ t : State, State.regAt p o t.nextDseq.2 = State.regAt p o t := fun t => State.setReg_cfe_keeps h t (by decide) _
  simp only [State.queueEvent]
  split
  · dsimp only
    rw [State.setEvtSeq_keeps h, State.addReg, State.setReg_cfe_keeps h _ (by decide), hseq]
  · dsimp only
    rw [State.flushRecs_keeps h, State.withHcq_at, hseq]

/-- An event of the CFE or of the Shutter is set on another page. -/
theorem State.setEvent_keeps (s : State) {page : Nat} (hp : page = pCFE ∨ page = pSHT) (bit : Nat) :
    State.regAt p o (s.setEvent page bit) = State.regAt p o s := by
  rcases hp with rfl | rfl
  · rw [State.setEvent, State.addReg, State.setReg_cfe_keeps h _ (by decide), State.setReg_cfe_keeps h _ (by decide)]
  · rw [State.setEvent, State.addReg, State.setReg_sht_keeps h _ (by decide), State.setReg_sht_keeps h _ (by decide)]

theorem State.reportEvent_keeps (s : State) (page bit : Nat) : State.regAt p o (s.reportEvent page bit) = State.regAt p o s := by
  have lost : ∀ t : State, State.regAt p o (t.setEvent pCFE 3) = State.regAt p o t := fun t => State.setEvent_keeps h t (.inl rfl) 3
  simp only [State.reportEvent]
  split
  · rfl
  · split
    · split
      · rw [lost, State.queueEvent_keeps h]
      · rw [State.queueEvent_keeps h, lost, State.queueEvent_keeps h]
    · exact State.queueEvent_keeps h s page bit

theorem State.raise0_keeps (s : State) {page : Nat} (hp : page = pCFE ∨ page = pSHT) (bit : Nat) :
    State.regAt p o (s.raise0 page bit) = State.regAt p o s := by
  rw [State.raise0, State.reportEvent_keeps h, State.setEvent_keeps h s hp]

theorem State.setJob_keeps (s : State) (j : Nat) : State.regAt p o (s.setJob j) = State.regAt p o s := by
  simp only [State.setJob]
  split
  · rfl
  · rw [State.raise0_keeps h _ (.inl rfl), State.setRf, State.setReg_cfe_keeps h _ (by decide)]

theorem State.selfRefresh_keeps (s : State) : State.regAt p o s.selfRefresh = State.regAt p o s := by
  unfold State.selfRefresh
  apply foldl_keep (State.regAt p o)
  intro s i
  dsimp only
  split
  · exact State.setStack_at ..
  · rw [State.setRf, State.setReg_off_keeps h _ (by decide) h.retrain, State.setStack_at]

theorem State.freeze_keeps (s : State) (kind trig scope origin seq symKind : Nat) (inPort : Option Nat) :
    State.regAt p o (s.freeze kind trig scope origin seq symKind inPort) = State.regAt p o s := by
  have symbols : ∀ (l : List Nat) (t : State),
      State.regAt p o (l.foldl (fun s p => State.emit s (.frz p scope symKind origin seq)) t) =
      State.regAt p o t := fun l t => foldl_keep (State.regAt p o) _ (fun _ _ => State.emit_at _ _) l t
  have ramps : ∀ t : State, State.regAt p o ((List.range 32).foldl (fun s i => State.rampDown s i (s.floorDemand i)) t) =
      State.regAt p o t := fun t => foldl_keep (State.regAt p o) _ (fun _ _ => State.rampDown_at _ _ _) _ t
  have pin : ∀ t : State, State.regAt p o ({ t with board := { t.board with shutter := true } } : State) = State.regAt p o t :=
    fun _ => State.withBoard_at _ _
  have state : ∀ (t : State) (v : Word), State.regAt p o (t.setReg pSHT 0x110 v) = State.regAt p o t :=
    fun t v => State.setReg_sht_keeps h t (by decide) v
  have latency : ∀ (t : State) (hi lo v : Nat), State.regAt p o (t.setRf pSHT 0x128 hi lo v) = State.regAt p o t :=
    fun t _ _ _ => State.setReg_sht_keeps h t (by decide) _
  have job : ∀ (t : State) (hi lo v : Nat), State.regAt p o (t.setRf pCFE 0x100 hi lo v) = State.regAt p o t :=
    fun t _ _ _ => State.setReg_cfe_keeps h t (by decide) _
  have own : ∀ (t : State) (b : Nat), State.regAt p o (t.raise0 pSHT b) = State.regAt p o t :=
    fun t b => State.raise0_keeps h t (.inr rfl) b
  unfold State.freeze
  dsimp only
  split_ifs <;> simp only [own, State.setJob_keeps h, latency, job, State.draw_at, State.selfRefresh_keeps h,
    state, symbols, ramps, pin]

/-- Of a register of another kind, raising an event writes what setting it writes. -/
theorem State.raise_eq_setEvent (s : State) (page bit : Nat) : (s.raise page bit).reg p o = (s.setEvent page bit).reg p o := by
  rw [← State.regAt_eq, ← State.regAt_eq]
  simp only [State.raise]
  split
  · rw [State.trigFire, State.freezeHere, State.freeze_keeps h, State.withShut_at, State.withShut_at, State.raise0,
      State.reportEvent_keeps h]
  · rw [State.raise0, State.reportEvent_keeps h]

end Unreported

theorem State.setEvent_status {s : State} (hs : Tab.sortedFrom 0 s.regs = true) (page bit : Nat) :
    (s.setEvent page bit).reg page 0x030 = setBit (s.reg page 0x030) bit true := by
  rw [State.setEvent, State.reg_addReg_ne _ _ (by rw [Ne, regKey_inj (by decide) (by decide)]; simp), State.reg_setReg_self hs]

theorem State.setEvent_count {s : State} (hs : Tab.sortedFrom 0 s.regs = true) (page bit : Nat) :
    (s.setEvent page bit).reg page 0x038 = s.reg page 0x038 + 1 := by
  rw [State.setEvent, State.reg_addReg_self (State.sorted_setReg hs _ _ _),
    State.reg_setReg_ne _ _ (by rw [Ne, regKey_inj (by decide) (by decide)]; simp)]
  rfl

/-- Settles O12: setting the event writes EVT_STATUS and EVT_COUNT, and its report leaves both. -/
theorem eventIsSetAndCounted : Obligations.EventIsSetAndCounted := by
  intro s page bit hs hcfe hsht hbit t
  have hsorted : Tab.sortedFrom 0 s.regs = true := Regs.sorted_of_wf hs.1
  have hset : ∀ o, o < 4096 → o ≠ 0x120 → o ≠ 0x140 → t.reg page o = (s.setEvent page bit).reg page o := fun o ho hf hr =>
    State.raise_eq_setEvent ⟨hcfe, hsht, ho, hf, hr⟩ s page bit
  have hstatus : t.reg page 0x030 = setBit (s.reg page 0x030) bit true := by
    rw [hset _ (by decide) (by decide) (by decide), State.setEvent_status hsorted]
  have hcount : t.reg page 0x038 = s.reg page 0x038 + 1 := by
    rw [hset _ (by decide) (by decide) (by decide), State.setEvent_count hsorted]
  refine ⟨?_, hcount, fun b _ hne => ?_, State.mem_of_unraised (State.raise_unraised s page bit),
    fun p o ho h => State.raise_keep h ho s page bit⟩
  · rw [hstatus, bitAt_setBit_self _ _ hbit]
  · rw [hstatus, bitAt_setBit_ne _ _ hbit hne]

end Sys2Proof.Machine
end

section
/-! SUPPORT. The proof of the statement about disabling a page (R62). Disabling an Ethernet or an RCE page breaks the QPs of its
port, which ends host commands, releases their pins and lets the transactions that waited for a region go on. None of that writes
CTL or REASON of a page. -/

namespace Sys2Proof.Machine

theorem State.regAt_congr {p o : Nat} {s t : State} (h : t.regs = s.regs) : State.regAt p o t = State.regAt p o s := by
  rw [State.regAt_eq, State.regAt_eq, State.reg, State.reg, h]

/-! ## Operations that write no register -/

@[simp] theorem State.finishIns_regs (s : State) (n x : Nat) (i : Ins) : (s.finishIns n x i).regs = s.regs := rfl

@[simp] theorem State.setResident_regs (s : State) (n : Nat) (ls : List Nat) (v : Bool) : (s.setResident n ls v).regs = s.regs := rfl

theorem State.writeLine_regs (s : State) (a : Nat) (bs : List Byte) : (s.writeLine a bs).regs = s.regs := by
  unfold State.writeLine
  split
  · rfl
  · dsimp only
    split <;> rfl

theorem State.writeLocal_regs (s : State) (a : Nat) (bs : List Byte) : (s.writeLocal a bs).regs = s.regs := by
  unfold State.writeLocal
  split
  · rfl
  · exact foldl_keep State.regs _ (fun t l => State.writeLine_regs t _ _) _ s

theorem State.unpinRegion_regs (s : State) (r : Nat) : (s.unpinRegion r).regs = s.regs := State.writeLocal_regs ..

theorem State.openRegion_regs (s : State) (id r : Nat) : (s.openRegion id r).regs = s.regs := State.writeLocal_regs ..

theorem State.sendWake_regs (s : State) (key : Nat) (w : Waiter) (status : Nat) : (s.sendWake key w status).regs = s.regs := by
  unfold State.sendWake
  split <;> rfl

/-! ## CTL and REASON stand -/

section Ctl

variable {p o : Nat} (h : o = 0x018 ∨ o = 0x028)
include h

theorem ctl_not_eventReg : Safety.EventReg p o = false := by rcases h with rfl | rfl <;> simp [Safety.EventReg]

/-- Every register behind REASON is another one. -/
theorem State.setReg_ctl (s : State) {p' o' : Nat} (ho' : 0x028 < o' ∧ o' < 4096) (v : Word) :
    State.regAt p o (s.setReg p' o' v) = State.regAt p o s :=
  State.setReg_at s v (by rw [Ne, regKey_inj (by omega) ho'.2]; omega)

theorem State.setRf_ctl (s : State) {p' o' : Nat} (ho' : 0x028 < o' ∧ o' < 4096) (hi lo v : Nat) :
    State.regAt p o (s.setRf p' o' hi lo v) = State.regAt p o s := State.setReg_ctl h s ho' _

theorem State.raise_ctl (s : State) (page bit : Nat) : State.regAt p o (s.raise page bit) = State.regAt p o s :=
  State.raise_at (ctl_not_eventReg h) (by omega) s page bit

theorem State.raiseIf_ctl (s : State) (b : Bool) (page bit : Nat) : State.regAt p o (s.raiseIf b page bit) = State.regAt p o s := by
  unfold State.raiseIf
  split
  · exact State.raise_ctl h s page bit
  · rfl

theorem State.setJobUnder_ctl (s : State) (j : Nat) : State.regAt p o (s.setJobUnder j) = State.regAt p o s := by
  unfold State.setJobUnder
  split
  · exact State.setRf_ctl h s (by decide) ..
  · exact State.setJob_keep (ctl_not_eventReg h) (by omega) s j

/-! ## Waits of contexts -/

theorem State.countWatches_ctl (s : State) (unit : Nat) : State.regAt p o (s.countWatches unit) = State.regAt p o s := by
  unfold State.countWatches
  split
  · rfl
  · dsimp only
    rw [State.setRf_ctl h _ (by decide), State.setRf_ctl h _ (by decide)]

theorem State.evalPool_ctl (s : State) (unit idx : Nat) : State.regAt p o (s.evalPool unit idx) = State.regAt p o s := by
  unfold State.evalPool
  dsimp only
  rw [State.countWatches_ctl h, foldl_keep (State.regAt p o) _ fun t w => State.regAt_congr (State.sendWake_regs t _ w _)]
  exact State.regAt_congr rfl

theorem State.freeWatch_ctl (s : State) (unit node core ctx tag : Nat) :
    State.regAt p o (s.freeWatch unit node core ctx tag).2 = State.regAt p o s := by
  unfold State.freeWatch
  dsimp only
  rw [State.countWatches_ctl h, foldl_keep (State.regAt p o), foldl_keep (State.regAt p o)]
  · exact fun t k => State.regAt_congr rfl
  · intro t k
    split
    · exact State.evalPool_ctl h ..
    · rfl

theorem State.sendCancel_ctl (s : State) (n x : Nat) (w : WaitSt) (gone : Bool) :
    State.regAt p o (s.sendCancel n x w gone) = State.regAt p o s := by
  unfold State.sendCancel
  split
  · rfl
  · split
    · exact State.freeWatch_ctl h ..
    · dsimp only
      split <;> exact State.regAt_congr rfl

theorem State.dropWait_ctl (s : State) (n x : Nat) : State.regAt p o (s.dropWait n x) = State.regAt p o s := by
  unfold State.dropWait
  dsimp only
  split
  · rfl
  · rw [State.sendCancel_ctl h]
    exact State.regAt_congr rfl

/-! ## Transactions -/

theorem State.txnRegs_ctl (s : State) : State.regAt p o s.txnRegs = State.regAt p o s := by
  have counts : ∀ t : State, ∀ d a b c : Nat, State.regAt p o
      (((t.setRf (pTXN d) 0x120 8 0 a).setRf (pTXN d) 0x128 20 0 b).setRf (pTXN d) 0x128 52 32 c) = State.regAt p o t := by
    intro t d a b c
    rw [State.setRf_ctl h _ (by decide), State.setRf_ctl h _ (by decide), State.setRf_ctl h _ (by decide)]
  unfold State.txnRegs
  dsimp only
  split <;> rw [State.setReg_ctl h _ (by decide), foldl_keep (State.regAt p o) _ fun t d => counts t d _ _ _]

theorem State.verdictBit_ctl (s : State) (b : Nat) : State.regAt p o (s.verdictBit b) = State.regAt p o s := by
  unfold State.verdictBit
  split
  · exact State.regAt_congr rfl
  · dsimp only
    split
    · rw [State.setRf_ctl h _ (by decide), State.setRf_ctl h _ (by decide)]
    · exact State.setRf_ctl h _ (by decide) ..

theorem State.txnCause_ctl (s : State) (id cause code cls core ctx : Nat) :
    State.regAt p o (s.txnCause id cause code cls core ctx) = State.regAt p o s := by
  have mapped : ∀ f : Txn → Txn, State.regAt p o (s.mapTxn id f) = State.regAt p o s := fun _ => State.regAt_congr rfl
  unfold State.txnCause
  split
  · rfl
  · split
    · rfl
    · dsimp only
      rw [State.txnRegs_ctl h]
      split
      · rw [State.verdictBit_ctl h, mapped]
      · exact mapped _

theorem State.txnLeave_ctl (s : State) (n x : Nat) : State.regAt p o (s.txnLeave n x) = State.regAt p o s := by
  unfold State.txnLeave
  dsimp only
  split
  · rfl
  · rw [State.txnRegs_ctl h]
    exact State.regAt_congr rfl

theorem State.faultCtx_ctl (s : State) (n : Nat) {x : Nat} (hx : x < 2) (f : FaultRec) :
    State.regAt p o (s.faultCtx n x f) = State.regAt p o s := by
  have group : ∀ k, k ≤ 0x28 → 0x028 < corOff x k ∧ corOff x k < 4096 := fun k hk => by unfold corOff; omega
  have job : ∀ t : State,
      State.regAt p o (if t.jobUnder = 2 ∨ t.jobUnder = 3 then t.setJobUnder 6 else t) = State.regAt p o t := by
    intro t
    split
    · exact State.setJobUnder_ctl h t 6
    · rfl
  unfold State.faultCtx
  dsimp only
  split
  · rfl
  · rw [job]
    split <;> simp only [State.txnLeave_ctl h, State.txnCause_ctl h, State.dropWait_ctl h, State.raise_ctl h, State.setCtxState,
      State.setRf_ctl h _ (group 0x00 (by decide)), State.setReg_ctl h _ (group 0x10 (by decide)),
      State.setReg_ctl h _ (group 0x18 (by decide)), State.setReg_ctl h _ (group 0x20 (by decide)),
      State.setReg_ctl h _ (group 0x28 (by decide))]

theorem State.txnFault_ctl (s : State) (n : Nat) {x : Nat} (hx : x < 2) (i : Ins) (r : Refuse) :
    State.regAt p o (s.txnFault n x i r) = State.regAt p o s := by
  unfold State.txnFault
  dsimp only
  rw [State.faultCtx_ctl h _ n hx, State.regAt_congr (State.finishIns_regs _ _ _ _)]
  split
  · rfl
  · exact State.regAt_congr (State.setResident_regs ..)

theorem State.serveTxo_ctl (s : State) (n : Nat) {x : Nat} (hx : x < 2) (i : Ins) (t : Txn) :
    State.regAt p o (s.serveTxo n x i t) = State.regAt p o s := by
  unfold State.serveTxo
  dsimp only
  split
  · exact State.regAt_congr rfl
  · split
    · exact State.txnFault_ctl h s n hx ..
    · split
      · rw [State.regAt_congr (State.finishIns_regs _ _ _ _), State.raise_ctl h, State.txnCause_ctl h]
      · split
        · rw [State.raise_ctl h]
          exact State.regAt_congr rfl
        · rw [State.regAt_congr (State.finishIns_regs _ _ _ _)]
          exact State.regAt_congr (State.openRegion_regs ..)

theorem State.retryTxo_ctl (s : State) : State.regAt p o s.retryTxo = State.regAt p o s := by
  unfold State.retryTxo
  apply foldl_keep (State.regAt p o)
  intro t c
  dsimp only
  split
  · rfl
  · split
    · split
      · rfl
      · rw [State.serveTxo_ctl h _ _ (Nat.mod_lt _ (by decide))]
        exact State.regAt_congr rfl
    · rfl

/-! ## Commands of the host -/

theorem State.dropPins_ctl (s : State) (q : Nat) : State.regAt p o (s.dropPins q) = State.regAt p o s := by
  have unpinned : ∀ (l rest : List (Nat × Nat)) (t : State),
      State.regAt p o (l.foldl (fun (s : State) (e : Nat × Nat) =>
        if rest.any (fun f => f.1 == e.1) then s else s.unpinRegion e.1) t) = State.regAt p o t := by
    intro l rest t
    apply foldl_keep (State.regAt p o)
    intro t e
    split
    · rfl
    · exact State.regAt_congr (State.unpinRegion_regs ..)
  unfold State.dropPins
  dsimp only
  split
  · rw [unpinned]
    exact State.regAt_congr rfl
  · rw [State.retryTxo_ctl h, unpinned]
    exact State.regAt_congr rfl

theorem State.queueCompletion_ctl (s : State) (q hseq status cls opcode result : Nat) (aside : Option Nat) :
    State.regAt p o (s.queueCompletion q hseq status cls opcode result aside) = State.regAt p o s := by
  unfold State.queueCompletion
  dsimp only
  rw [State.flushRecs_keep (ctl_not_eventReg h) (by omega), State.withHcq_at]
  split
  · exact State.nextDseq_keep (ctl_not_eventReg h) (by omega) s
  · exact State.regAt_congr rfl

theorem State.completeCmd_ctl (s : State) (q status cls result : Nat) :
    State.regAt p o (s.completeCmd q status cls result) = State.regAt p o s := by
  have hq : 0x028 < qOff q 0x38 ∧ qOff q 0x38 < 4096 := by unfold qOff; omega
  unfold State.completeCmd
  dsimp only
  split
  · rfl
  · rw [State.complete, State.raiseIf_ctl h, State.queueCompletion_ctl h, State.setReg_ctl h _ hq]
    exact State.regAt_congr rfl

theorem State.breakQp_ctl (s : State) (port qpn : Nat) : State.regAt p o (s.breakQp port qpn) = State.regAt p o s := by
  unfold State.breakQp
  split
  · rfl
  · dsimp only
    rw [foldl_keep (State.regAt p o)]
    · exact State.regAt_congr rfl
    · intro t q
      split
      · rw [State.endMove, State.completeCmd_ctl h, State.dropPins_ctl h]
      · rfl

theorem State.breakPort_ctl (s : State) (port : Nat) : State.regAt p o (s.breakPort port) = State.regAt p o s :=
  foldl_keep (State.regAt p o) (fun (t : State) (q : Qp) => t.breakQp port q.qpn) (fun t q => State.breakQp_ctl h t port q.qpn) _ s

/-- Disabling an enabled page writes ENABLE, and neither CTL nor REASON otherwise. -/
theorem State.onDisable_ctl {s : State} {page : Nat} (he : s.enabled page = true) (c : Cls) (i : Nat) :
    (s.onDisable c i page).reg p o = (s.setRf page 0x018 0 0 0).reg p o := by
  rw [← State.regAt_eq, ← State.regAt_eq, State.onDisable, he]
  simp only [Bool.not_true, Bool.false_eq_true, if_false]
  cases c with
  | llc =>
    dsimp only
    split
    · rw [State.addReg, State.setReg_ctl h _ (by decide), State.draw_at]
    · rfl
  | eth =>
    dsimp only
    rw [State.breakPort_ctl h, State.raiseIf_ctl h, State.setReg_ctl h _ (by decide)]
  | rce => exact State.breakPort_ctl h _ _
  | dir | cfe | mxa | cor | qnt | vec | syn | txn | mem | tor | rtr | col | sht | pwr | thm | ras | sec | gen => rfl

end Ctl

theorem State.onDisable_enabled {s : State} (hs : Tab.sortedFrom 0 s.regs = true) (c : Cls) (i page : Nat) :
    (s.onDisable c i page).enabled page = false := by
  cases he : s.enabled page with
  | false =>
    rw [State.onDisable, he]
    exact he
  | true =>
    rw [State.enabled, State.onDisable_ctl (.inl rfl) he, State.reg_setRf_self hs, bitAt_fld,
      fld_setFld_self _ _ (by decide) (by decide)]
    rfl

theorem State.onDisable_reason (s : State) (c : Cls) (i page : Nat) : (s.onDisable c i page).reg page 0x028 = s.reg page 0x028 := by
  cases he : s.enabled page with
  | false =>
    rw [State.onDisable, he]
    rfl
  | true =>
    rw [State.onDisable_ctl (.inr rfl) he, State.reg_setRf_ne]
    rw [Ne, regKey_inj (by decide) (by decide)]
    simp

/-- Settles O9: the branches of `State.ctlWrite`, by the enable kind. -/
theorem disableByKind : Obligations.DisableByKind := by
  intro s page c i hs hc
  have refused : ∀ code, code ≠ cOK → s.ctlWrite c i page 0 = (code, s) →
      s.writeReg page 0x018 0 .host = s.setReason page 0x018 code 3 := fun code hcode h => by
    rw [State.writeReg_ctl_refused hc h hcode, State.refuseWrite_host hc]
  refine ⟨fun hk he => ?_, fun hk => refused _ (by decide) ?_, fun hk => refused _ (by decide) ?_,
    fun hk htor hbusy => refused _ (by decide) ?_, fun hk hfree => ?_⟩
  · exact State.writeReg_ctl hc (State.ctlWrite_enabled hk he)
  · rw [State.ctlWrite, if_pos hk]
  · rw [State.ctlWrite, if_neg (by omega), if_neg (by decide), if_neg (by decide), if_pos hk]
  · rw [State.ctlWrite, if_neg (by omega), if_neg (by decide), if_neg (by decide), if_neg (by omega), if_pos ⟨hk, htor, hbusy⟩]
  · rw [State.writeReg_ctl hc (State.ctlWrite_disable hk hfree)]
    exact ⟨State.onDisable_enabled (Regs.sorted_of_wf hs.1) c i page, State.onDisable_reason s c i page⟩

end Sys2Proof.Machine
end

section
/-! SUPPORT. The proof of the statement about the order of refusals (R136). -/

namespace Sys2Proof.Machine

/-- R136: a condition is reported no later than another: by word, then by bit, then by code. -/
def Check.noLater (c d : Check) : Prop :=
  c.1 < d.1 ∨ (c.1 = d.1 ∧ (c.2.1 < d.2.1 ∨ (c.2.1 = d.2.1 ∧ c.2.2.1 ≤ d.2.2.1)))

theorem Check.noLater_refl (c : Check) : Check.noLater c c := .inr ⟨rfl, .inr ⟨rfl, le_rfl⟩⟩

theorem Check.noLater_trans {c d e : Check} (h : Check.noLater c d) (h' : Check.noLater d e) : Check.noLater c e := by
  unfold Check.noLater at *
  omega

/-- The earlier of the condition found so far and a further one, if that holds: one round of `firstRefusal`. -/
def Check.earlier (b : Option Check) (c : Check) : Option Check :=
  if c.2.2.2 then
    match b with
    | none => some c
    | some d =>
      if (c.1, c.2.1, c.2.2.1) = (d.1, d.2.1, d.2.2.1) then some d
      else if c.1 < d.1 ∨ (c.1 = d.1 ∧ (c.2.1 < d.2.1 ∨ (c.2.1 = d.2.1 ∧ c.2.2.1 < d.2.2.1))) then some c
      else some d
  else b

theorem firstRefusal_eq (cs : List Check) :
    firstRefusal cs = (cs.foldl Check.earlier none).map (fun c => { code := c.2.2.1, word := c.1, bit := c.2.1 }) := rfl

theorem Check.earlier_of_not {c : Check} (hc : c.2.2.2 = false) (b : Option Check) : Check.earlier b c = b := by
  simp [Check.earlier, hc]

theorem Check.earlier_none {c : Check} (hc : c.2.2.2 = true) : Check.earlier none c = some c := by
  simp [Check.earlier, hc]

/-- Of two conditions that hold, the one kept is reported no later than either. -/
theorem Check.earlier_some {c : Check} (hc : c.2.2.2 = true) (d : Check) :
    (Check.earlier (some d) c = some d ∧ Check.noLater d c) ∨ (Check.earlier (some d) c = some c ∧ Check.noLater c d) := by
  simp only [Check.earlier, hc, if_true, Prod.mk.injEq, Check.noLater]
  split_ifs with heq hlt
  · exact .inl ⟨rfl, by omega⟩
  · exact .inr ⟨rfl, by omega⟩
  · exact .inl ⟨rfl, by omega⟩

/-- What `firstRefusal` has found among conditions: one that holds and is reported no later than any other that does, or nothing where
none holds. -/
def Check.IsFirst (cs : List Check) : Option Check → Prop
  | none => ∀ c ∈ cs, c.2.2.2 = false
  | some d => d ∈ cs ∧ d.2.2.2 = true ∧ ∀ c ∈ cs, c.2.2.2 = true → Check.noLater d c

theorem Check.isFirst_earlier {cs : List Check} {b : Option Check} (h : Check.IsFirst cs b) (c : Check) :
    Check.IsFirst (cs ++ [c]) (Check.earlier b c) := by
  have split : ∀ e ∈ cs ++ [c], e ∈ cs ∨ e = c := fun e he => by simpa using he
  cases hc : c.2.2.2 with
  | false =>
    rw [Check.earlier_of_not hc]
    cases b with
    | none => exact fun e he => (split e he).elim (h e) (· ▸ hc)
    | some d =>
      obtain ⟨hmem, hd, hmin⟩ := h
      refine ⟨List.mem_append_left _ hmem, hd, fun e he ht => (split e he).elim (hmin e · ht) ?_⟩
      rintro rfl
      simp [hc] at ht
  | true =>
    have last : c ∈ cs ++ [c] := List.mem_append_right _ (List.mem_singleton_self c)
    cases b with
    | none =>
      rw [Check.earlier_none hc]
      refine ⟨last, hc, fun e he ht => (split e he).elim (fun hm => ?_) (fun he => he ▸ Check.noLater_refl _)⟩
      simp [h e hm] at ht
    | some d =>
      obtain ⟨hmem, hd, hmin⟩ := h
      obtain ⟨he, hle⟩ | ⟨he, hle⟩ := Check.earlier_some hc d
      · rw [he]
        exact ⟨List.mem_append_left _ hmem, hd, fun e he ht => (split e he).elim (hmin e · ht) (· ▸ hle)⟩
      · rw [he]
        exact ⟨last, hc, fun e he ht => (split e he).elim (fun hm => Check.noLater_trans hle (hmin e hm ht))
          (fun he => he ▸ Check.noLater_refl _)⟩

/-- The fold of `firstRefusal` finds the first condition that holds. -/
theorem Check.isFirst_foldl (cs : List Check) : Check.IsFirst cs (cs.foldl Check.earlier none) := by
  induction cs using List.reverseRecOn with
  | nil => exact fun c hc => by cases hc
  | append_singleton cs c ih =>
    rw [List.foldl_concat]
    exact Check.isFirst_earlier ih c

/-- Settles O60: the condition that the fold keeps is the first of those that hold. -/
theorem firstRefusalIsReported : Obligations.FirstRefusalIsReported := by
  intro cs
  have h := Check.isFirst_foldl cs
  rw [firstRefusal_eq]
  cases hb : cs.foldl Check.earlier none with
  | none =>
    rw [hb] at h
    exact ⟨⟨fun _ => h, fun _ => rfl⟩, nofun⟩
  | some d =>
    rw [hb] at h
    obtain ⟨hmem, hd, hmin⟩ := h
    refine ⟨⟨nofun, fun hall => ?_⟩, fun r hr => ?_⟩
    · simp [hall d hmem] at hd
    · cases hr
      exact ⟨hd ▸ hmem, hmin⟩

end Sys2Proof.Machine
end

section
/-! SUPPORT. The proofs of the statements about the decode of instructions: what the issue unit's decode of a descriptor leaves
(R118, R120). -/

namespace Sys2Proof.Machine

/-! ## Contexts after an update of a core -/

theorem State.sorted_cores_setCore {s : State} (h : Tab.sortedFrom 0 s.cores = true) (n : Nat) (c : Core) :
    Tab.sortedFrom 0 (s.setCore n c).cores = true := Tab.sortedFrom_set h

theorem State.core_setCore_of_sorted {s : State} (h : Tab.sortedFrom 0 s.cores = true) (n m : Nat) (c : Core) :
    (s.setCore n c).core m = if m = n then c else s.core m := Tab.get_set h _ _ _ _

theorem State.ctx_of_cores {s t : State} (h : t.cores = s.cores) (n x : Nat) : t.ctx n x = s.ctx n x := by
  rw [State.ctx, State.core, h]
  rfl

/-- A core set to one with the same contexts. -/
theorem State.ctx_setCore_of_same {s : State} (h : Tab.sortedFrom 0 s.cores = true) {n : Nat} {c : Core}
    (h0 : c.c0 = (s.core n).c0) (h1 : c.c1 = (s.core n).c1) (m y : Nat) : (s.setCore n c).ctx m y = s.ctx m y := by
  rw [State.ctx, State.core_setCore_of_sorted h]
  split
  · next hm => rw [Core.ctx, h0, h1, hm, State.ctx, Core.ctx]
  · rfl

theorem Core.ctx_setCtx (c : Core) {x y : Nat} (v : Ctx) (hx : x < 2) (hy : y < 2) :
    (c.setCtx x v).ctx y = if y = x then v else c.ctx y := by
  interval_cases x <;> interval_cases y <;> rfl

/-- What a context reads after one has been set. -/
theorem State.ctx_setCtx_of_sorted {s : State} (h : Tab.sortedFrom 0 s.cores = true) (n m : Nat) {x y : Nat} (v : Ctx) (hx : x < 2)
    (hy : y < 2) : (s.setCtx n x v).ctx m y = if (m, y) = (n, x) then v else s.ctx m y := by
  rw [State.ctx, State.setCtx, State.core_setCore_of_sorted h]
  by_cases hm : m = n
  · subst hm
    simp [Core.ctx_setCtx, hx, hy, State.ctx]
  · simp [hm, State.ctx]

/-! ## The decode of an instruction -/

/-- An occurrence of a point at which no injection takes effect is counted, and changes nothing else (R459). -/
theorem State.inject_of_unfired {s : State} {page pt : Nat} (h : (s.inject page pt).1 = false) :
    ∃ v, (s.inject page pt).2 = { s with inj := v } := by
  unfold State.inject at h ⊢
  dsimp only at h ⊢
  split_ifs at h ⊢ with hoff hone hfire
  · exact ⟨s.inj, rfl⟩
  · exact absurd h (by simp [hfire])
  · exact ⟨_, rfl⟩

/-- A match of SHT.TRIG at a decode changes what the freeze of an event changes (R474). -/
theorem State.trigDecode_unraised (s : State) (n x pc : Nat) : (s.trigDecode n x pc).unraised = s.unraised := by
  rw [State.trigDecode]
  split
  · exact s.trigFire_unraised
  · rfl

theorem State.trigDecode_reg {p o : Nat} (h : Safety.EventReg p o = false) (ho : o < 4096) (s : State) (n x pc : Nat) :
    (s.trigDecode n x pc).reg p o = s.reg p o := by
  rw [State.trigDecode]
  split
  · rw [State.trigFire, State.freezeHere_reg h ho]
    rfl
  · rfl

theorem corOff_pc_lt (x : CtxId) : corOff x.val 0x08 < 4096 := by
  have := x.isLt
  simp only [corOff]
  omega

/-- PC of a context is not a register that events write. -/
theorem eventReg_pc (n : CoreId) (x : CtxId) : Safety.EventReg (pCOR n.val) (corOff x.val 0x08) = false := by
  have := n.isLt
  have := x.isLt
  simp [Safety.EventReg, pCOR, corOff, pCFE, pSHT]
  omega

/-- A context with an instruction last in its queue. -/
def Ctx.queued (c : Ctx) (i : Ins) : Ctx := { c with
  nseq := c.nseq + 1
  queue := c.queue ++ [i] }

/-- An instruction enters its queue, with the next place in the program order of its context and among the decodes of its core. -/
def State.queueIns (s : State) (n x : Nat) (i : Ins) : State :=
  let s := s.setCtx n x ((s.ctx n x).queued i)
  s.setCore n { s.core n with nstamp := (s.core n).nstamp + 1 }

/-- What decoding an instruction does of itself: it enters its queue, PC moves on, and the lines it will write are no longer
resident (R118, R120). -/
def State.enterIns (s : State) (n x : Nat) (i : Ins) (npc : Nat) : State :=
  let s := (s.queueIns n x i).setRf (pCOR n) (corOff x 0x08) 47 0 npc
  if i.lines = [] then s else s.setResident n i.lines false

/-- A decode is that, and a possible match of SHT.TRIG. -/
theorem State.decodeIns_eq (s : State) (n x : Nat) (i : Ins) (npc : Nat) :
    s.decodeIns n x i npc = (s.enterIns n x i npc).trigDecode n x i.pc := rfl

theorem State.enterIns_regs (s : State) (n x : Nat) (i : Ins) (npc : Nat) :
    (s.enterIns n x i npc).regs = (s.setRf (pCOR n) (corOff x 0x08) 47 0 npc).regs := by
  simp only [State.enterIns]
  split <;> rfl

theorem State.enterIns_reg (s : State) (n x : Nat) (i : Ins) (npc p o : Nat) :
    (s.enterIns n x i npc).reg p o = (s.setRf (pCOR n) (corOff x 0x08) 47 0 npc).reg p o := by
  rw [State.reg, State.enterIns_regs, State.reg]

/-- Memory, arrays, sync objects and transactions stand. -/
theorem State.enterIns_keeps (s : State) (n x : Nat) (i : Ins) (npc : Nat) :
    let t := s.enterIns n x i npc
    t.mem = s.mem ∧ t.arrs = s.arrs ∧ t.sync = s.sync ∧ t.txn = s.txn := by
  simp only [State.enterIns]
  split <;> simp only [State.setResident, State.queueIns, State.setCore_mem, State.setCore_arrs, State.setCore_sync, State.setCore_txn,
    State.setRf_mem, State.setRf_arrs, State.setRf_sync, State.setRf_txn, State.setCtx_mem, State.setCtx_arrs, State.setCtx_sync,
    State.setCtx_txn, and_self]

theorem State.ctx_setResident {s : State} (h : Tab.sortedFrom 0 s.cores = true) (n : Nat) (ls : List Nat) (v : Bool) (m y : Nat) :
    (s.setResident n ls v).ctx m y = s.ctx m y := by
  rw [State.setResident, State.ctx_setCore_of_same h]
  · rfl
  · rfl

section

variable {s : State} (h : Tab.sortedFrom 0 s.cores = true) (n m : Nat) {x y : Nat} (i : Ins) (hx : x < 2) (hy : y < 2)
include h

theorem State.sorted_cores_queueIns : Tab.sortedFrom 0 (s.queueIns n x i).cores = true :=
  State.sorted_cores_setCore (State.sorted_cores_setCore h n _) n _

include hx hy

theorem State.ctx_queueIns : (s.queueIns n x i).ctx m y =
    if (m, y) = (n, x) then (s.ctx n x).queued i else s.ctx m y := by
  rw [State.queueIns, State.ctx_setCore_of_same, State.ctx_setCtx_of_sorted h n m _ hx hy]
  · exact State.sorted_cores_setCore h n _
  · rfl
  · rfl

theorem State.ctx_enterIns (npc : Nat) : (s.enterIns n x i npc).ctx m y =
    if (m, y) = (n, x) then (s.ctx n x).queued i else s.ctx m y := by
  have hcores : ((s.queueIns n x i).setRf (pCOR n) (corOff x 0x08) 47 0 npc).cores = (s.queueIns n x i).cores :=
    State.setRf_cores ..
  rw [← State.ctx_queueIns h n m i hx hy, State.enterIns, ← State.ctx_of_cores hcores]
  split
  · rfl
  · rw [State.ctx_setResident]
    rw [hcores]
    exact State.sorted_cores_queueIns h n i

end

/-- What a decode leaves (R118). -/
theorem State.decoded_decodeIns {s : State} (hcores : Tab.sortedFrom 0 s.cores = true) (hregs : Tab.sortedFrom 0 s.regs = true)
    (i : Issue) (cls : Nat) (lines : List Nat) :
    Safety.Decoded s (s.decodeIns i.core.val i.ctx.val (s.nextIns i.core.val i.ctx.val cls i.desc lines) i.npc.toNat) i cls := by
  set j := s.nextIns i.core.val i.ctx.val cls i.desc lines
  set t := s.enterIns i.core.val i.ctx.val j i.npc.toNat with ht
  rw [State.decodeIns_eq, ← ht]
  have hraise := t.trigDecode_unraised i.core.val i.ctx.val j.pc
  have hctx : ∀ m y, y < 2 → (t.trigDecode i.core.val i.ctx.val j.pc).ctx m y = _ := fun m y hy =>
    (State.ctx_of_cores (State.cores_of_unraised hraise) m y).trans (State.ctx_enterIns hcores _ _ _ i.ctx.isLt hy _)
  obtain ⟨hmem, harrs, hsync, htxn⟩ := s.enterIns_keeps i.core.val i.ctx.val j i.npc.toNat
  have hself := hctx i.core.val i.ctx.val i.ctx.isLt
  rw [if_pos rfl] at hself
  refine ⟨?_, ?_, ?_, ?_, ?_, fun p o ho he hne => ?_, ?_, fun m y hy hne => ?_, j, ?_, ?_, rfl, rfl, rfl, rfl, rfl⟩
  · rw [State.ctxPc, State.rf, State.trigDecode_reg (eventReg_pc i.core i.ctx) (corOff_pc_lt i.ctx), ht, State.enterIns_reg,
      State.reg_setRf_self hregs, fld_setFld_self _ _ (by decide) (by decide)]
    exact Nat.mod_eq_of_lt i.npc.isLt
  · exact (State.mem_of_unraised hraise).trans hmem
  · exact (State.arrs_of_unraised hraise).trans harrs
  · exact (State.sync_of_unraised hraise).trans hsync
  · exact (State.txn_of_unraised hraise).trans htxn
  · rw [State.trigDecode_reg he ho, ht, State.enterIns_reg, State.reg_setRf_ne]
    rw [Ne, regKey_inj ho (corOff_pc_lt i.ctx), ← Prod.mk.injEq]
    exact hne
  · rw [hself, Ctx.queued]
  · rw [hctx m y hy, if_neg hne]
  · rw [hself, Ctx.queued]
  · rw [hself, Ctx.queued]

/-- What a decode leaves does not speak of the occurrences counted before it. -/
theorem decoded_of_withInj {s u : State} {i : Issue} {cls : Nat} {v : Tab Nat}
    (h : Safety.Decoded { s with inj := v } u i cls) : Safety.Decoded s u i cls := h

/-! ## The rows of decode (R118, R136) -/

/-- A descriptor of a class that the issue unit decodes, which no check refuses, enters its queue (R118). -/
theorem State.issueGen_of_decodes {s : State} {i : Issue} {cls : Nat} (hs : Safety.Inv s) (hd : Safety.Decodes s i cls)
    (lines : List Nat) : ∃ u, Safety.Decoded s u i cls ∧
      s.issueGen i cls none lines = .next (if cls = 3 ∨ cls = 4 then u.progress.settle else u.settle) := by
  obtain ⟨hcan, hinj⟩ := hd
  obtain ⟨hregs, -, htables⟩ := hs
  obtain ⟨hcores, -⟩ := Tables.wf_parts htables
  obtain ⟨v, hv⟩ := State.inject_of_unfired hinj
  have hnext : s.nextIns i.core.val i.ctx.val cls i.desc lines =
      ({ s with inj := v } : State).nextIns i.core.val i.ctx.val cls i.desc lines := rfl
  have hdec : Safety.Decoded s ((s.inject (pCOR i.core.val) 2).2.decodeIns i.core.val i.ctx.val
      (s.nextIns i.core.val i.ctx.val cls i.desc lines) i.npc.toNat) i cls := by
    rw [hv, hnext]
    exact decoded_of_withInj (State.decoded_decodeIns (s := { s with inj := v }) (Tab.wf_sorted hcores) (Regs.sorted_of_wf hregs)
      i cls lines)
  refine ⟨_, hdec, ?_⟩
  simp only [State.issueGen, hcan, hinj, Bool.not_true, Bool.false_eq_true, if_false, State.advance_eq, State.done_eq]
  split <;> rfl

/-- A descriptor that carries the row's own opcode. -/
theorem opOk_of_own {d : Desc} {op : Nat} (h : fld d.w0 7 0 = op) (gap : List (Nat × Nat)) : opOk gap op d = true := by
  simp [opOk, h]

/-- The judgement at decode of a descriptor that no check refuses, or that does not reach an empty queue (R119, R136). -/
theorem headJudged_of {α : Type} {head : Option Ins} {bad : Option Refuse} (h : head ≠ none ∨ bad = none) (f : Refuse → α) :
    (if head.isSome then none else bad).map f = none := by
  cases head with
  | some j => rfl
  | none => simpa using h

/-- Settles O18: the checks of a descriptor that does not reach an empty queue are left to the head of the queue. -/
theorem matrixAndQuantiserInstructionsDecode : Obligations.MatrixAndQuantiserInstructionsDecode := by
  refine ⟨fun s i hs hop hd hbad => ?_, fun s i c op hc hs hop hd hbad => ?_⟩
  · obtain ⟨u, hu, he⟩ := State.issueGen_of_decodes hs hd []
    refine ⟨u, ?_, hu⟩
    change execMatrixInstruction i s = _
    rw [execMatrixInstruction, wellFormed_of (opOk_of_own hop _), headJudged_of hbad]
    exact he
  · obtain ⟨u, hu, he⟩ := State.issueGen_of_decodes hs hd
      (if (s.qntRefusal i.core.val i.ctx.val i.desc).isSome then [] else s.qntLines i.core.val i.ctx.val i.desc)
    have hrow : exec (c i) s = s.issueQnt op i := by fin_cases hc <;> rfl
    refine ⟨u, ?_, hu⟩
    rw [hrow, State.issueQnt, wellFormed_of (opOk_of_own hop _), headJudged_of hbad]
    exact he

/-- Settles O21: the twenty rows are one decode, which differs in the opcode alone. -/
theorem vectorInstructionsDecode : Obligations.VectorInstructionsDecode := by
  intro s i c op hc hs hop hd hbad
  obtain ⟨u, hu, he⟩ := State.issueGen_of_decodes hs hd
    (if (s.vecRefusal i.core.val i.ctx.val i.desc).isSome then [] else s.vecLines i.core.val i.ctx.val i.desc)
  have hrow : exec (c i) s = s.issueVec op i := by fin_cases hc <;> rfl
  refine ⟨u, ?_, hu⟩
  rw [hrow, State.issueVec, wellFormed_of (opOk_of_own hop _), headJudged_of hbad]
  exact he

/-- Settles O16: a descriptor that no check refuses enters the sync queue. -/
theorem syncInstructionsDecode : Obligations.SyncInstructionsDecode := by
  intro s i c op hc hs hop hd hbad
  obtain ⟨u, hu, he⟩ := State.issueGen_of_decodes hs hd []
  have hrow : exec (c i) s = s.issueSync op i := by fin_cases hc <;> rfl
  refine ⟨u, ?_, hu⟩
  rw [hrow, State.issueSync, wellFormed_of (opOk_of_own hop _), State.issue, hbad]
  exact he

/-- DCOPY and DATOM (R118, R307). -/
theorem exec_dma_decode {s : State} {i : Issue} {c : Issue → Instr} {op : Nat}
    (hc : (c, op) ∈ [(Instr.dcopy, 0x80), (Instr.datom, 0x81)]) (hs : Safety.Inv s) (hop : fld i.desc.w0 7 0 = op)
    (hd : Safety.Decodes s i 3) (hbad : s.dmaRefusal i.core.val i.ctx.val i.desc = none) :
    ∃ u, exec (c i) s = .next u.progress.settle ∧ Safety.Decoded s u i 3 := by
  obtain ⟨u, hu, he⟩ := State.issueGen_of_decodes hs hd (s.dmaLines i.core.val i.desc)
  have hrow : exec (c i) s = s.issueDma op i := by fin_cases hc <;> rfl
  refine ⟨u, ?_, hu⟩
  rw [hrow, State.issueDma, wellFormed_of (opOk_of_own hop _), State.issue, hbad]
  exact he

end Sys2Proof.Machine
end

section
/-! SUPPORT. The proofs of the statements about the rows of the engines: release, completion and poisoned lines of the matrix arrays,
the quantiser, the vector engine and the DMA engine. -/

namespace Sys2Proof.Machine

/-! ## The matrix arrays (R117 to R122, R440) -/

section Matrix

variable {s : State} {n : CoreId} {x : CtxId} {i : Ins} {m : Mx}

/-- RUN_RELEASE of an instruction that nothing holds back and no check refuses (R119). -/
theorem exec_runRelease (hi : s.ready n.val x.val 0 = some i) (hd : s.mxRefusal n.val x.val i.desc = none)
    (hm : mxOf i.desc = some m) (hw : (s.mxWait n.val x.val m).1 = 0) (hf : s.fitsMany n.val 18 m.arrays.length = true)
    (hinj : (s.inject (pCOR n.val) 1).1 = false) (ht : (s.inject (pCOR n.val) 1).2.mxTileRefusal n.val m = none) :
    exec (.runRelease n x) s = .next ((s.inject (pCOR n.val) 1).2.mxGate n.val x.val i m).progress.settle := by
  change execRunRelease n x s = _
  simp [execRunRelease, hi, hd, hm, hw, hf, hinj, ht, State.advance_eq]

/-- RUN_END of a run that reads no poisoned line (R117, R122). -/
theorem exec_runEnd (hl : s.live = true) (hfly : s.mxFly n.val x.val = some (i, m))
    (hb : (s.asLoaded n.val x.val).mxFirstBad n.val m = none) :
    let t := m.arrays.foldl (fun (s : State) (a : Nat) => s.mxEndArray n.val x.val m a) s
    let t := ((t.unpin n.val x.val i.seq).freeDemand n.val x.val i.seq).finishIns n.val x.val i
    let t := t.setCtx n.val x.val { t.ctx n.val x.val with loaded := [] }
    exec (.runEnd n x) s = .next (if m.arrays.all (fun a => s.liveState n.val a == 2) then t.signalTally n.val x.val i
      else t).progress.settle := by
  change execRunEnd n x s = _
  rw [execRunEnd, hfly]
  dsimp only
  rw [hb]
  exact happens_of hl _

/-- STATIONARY_UNPIN of a run that has stationary pins (R120). -/
theorem exec_stationaryUnpin {f : Ins × Mx} (hl : s.live = true) (hfly : s.mxFly n.val x.val = some f) :
    let mine (p : Pin) : Bool := p.ctx == x.val && p.stationary && p.seq == f.1.seq
    (s.core n.val).pins.any mine = true →
      exec (.stationaryUnpin n x) s = .next ((s.setCore n.val { s.core n.val with
        pins := (s.core n.val).pins.filter (fun p => !mine p) }).mxLoaded n.val x.val f.2).progress.settle := by
  intro mine hp
  change execStationaryUnpin n x s = _
  rw [execStationaryUnpin, hfly]
  exact happens_of (Bool.and_eq_true_iff.2 ⟨hl, hp⟩) _

end Matrix

/-- POISONED_LINE ends what a context of the core has released that reads the line, the named context first; else the issue unit
meets it (R130, R133, R314). -/
theorem exec_poisonedLine {s : State} (hl : s.live = true) (n : CoreId) (x : CtxId) (l : Fin 65536) :
    let spoilt : State := { s with mem := s.mem.setPoison (storeAddr n.val 0 / 64 + l.val) true }
    exec (.poisonedLine n x l) s =
      .next (((s.lineIn spoilt n.val x.val l.val).or (s.lineIn spoilt n.val (1 - x.val) l.val)).getD
        (if s.dmaReads n.val l.val then spoilt
          else (spoilt.faultBoth n.val
            { unit := 8, cls := 0x40, code := 0x40, pc := s.ctxPc n.val x.val }).contained)).progress.settle := by
  intro spoilt
  change execPoisonedLine n x l s = _
  rw [execPoisonedLine]
  split
  · next t h => rw [h]; exact happens_of hl _
  · next h => rw [h]; exact happens_of hl _

/-- Settles O19, row by row. -/
theorem matrixRows : Obligations.MatrixRows := by
  refine ⟨fun s n x => ⟨fun i m => exec_runRelease, fun i m => exec_runEnd, fun f => exec_stationaryUnpin⟩, fun s n x l hl => ?_⟩
  have h := exec_poisonedLine hl n x l
  refine ⟨fun t ht => ?_, fun t hnone ht => ?_, fun hnone hother => ?_⟩
  · rw [h, ht]; rfl
  · rw [h, hnone, ht]; rfl
  · rw [h, hnone, hother]; rfl

/-! ## The quantiser (R128, R172, R173, R177, R440) -/

section Quantiser

variable {s : State} {n : CoreId} {x : CtxId}

/-- QNT_RELEASE of an instruction that nothing holds back and no check refuses (R172). -/
theorem exec_qntRelease {i : Ins} (hi : s.ready n.val x.val 2 = some i) (hd : s.qntRefusal n.val x.val i.desc = none)
    (hq : (s.core n.val).qnt = none) (ht : s.turnOk n.val x.val (s.core n.val).turnQ = true)
    (hr : s.notReady n.val x.val i (s.qntReads n.val i.desc) = none) (hv : s.vdrainFirst n.val x.val i = false)
    (hc : s.firstCome n.val x.val 2 i (s.qntMay n.val) = true)
    (hdrain : qDrain i.desc = true → s.drainStep n.val x.val i.seq (qArray i.desc) = 0 ∧ s.qntDeferred n.val x.val i.desc = none)
    (hb : s.qntBadRec n.val i.desc = false) (hf : s.fits n.val 3 = true) (hinj : (s.inject (pCOR n.val) 1).1 = false) :
    exec (.qntRelease n x) s = .next ((s.inject (pCOR n.val) 1).2.qntGate n.val x.val i).progress.settle := by
  change execQntRelease n x s = _
  cases hdr : qDrain i.desc with
  | false =>
    have hm : s.qntMay n.val x.val i = true := by simp [State.qntMay, hr, hv, hdr]
    simp [execQntRelease, hi, hd, hq, ht, hm, hc, hdr, hb, hf, hinj, State.advance_eq]
  | true =>
    obtain ⟨hstep, hdef⟩ := hdrain hdr
    have hm : s.qntMay n.val x.val i = true := by simp [State.qntMay, hr, hv, hstep]
    simp [execQntRelease, hi, hd, hq, ht, hm, hc, hdr, hstep, hdef, hb, hf, hinj, State.advance_eq]

/-- QNT_COMPLETE of an instruction whose census updates are all answered (R177). -/
theorem exec_qntComplete_sent {j : EngJob} (hl : s.live = true) (hq : (s.core n.val).qnt = some j) (hs : j.sent = true)
    (ho : j.open_ = 0) : exec (.qntComplete n) s = .next (s.qntDone n.val j.ctx j.ins j.events).progress.settle := by
  change execQntComplete n s = _
  rw [execQntComplete, hq]
  dsimp only
  rw [if_pos hs]
  exact happens_of (by rw [hl, ho]; rfl) _

/-- QNT_COMPLETE of an instruction that reads no poisoned source and whose stores nothing pins (R173). -/
theorem exec_qntComplete {j : EngJob} {o : Opnd} (hl : s.live = true) (hq : (s.core n.val).qnt = some j) (hs : j.sent = false)
    (ho : qDst j.ins.desc (s.qGeom n.val j.ins.desc) = some o) (hb : s.qntFirstBad n.val j.ins.desc = none) :
    let ls := s.qntLoads n.val j.ins.desc
    let q := qntOut j.ins.desc o ls.1
    s.pinnedByOther n.val j.ctx j.ins.seq (writtenLines q.writes) = false →
    (qCensus j.ins.desc && s.censusWaits n.val j.ins.desc) = false →
    exec (.qntComplete n) s =
      .next (ls.2.qntFinish n.val j.ctx j.ins (s.qGeom n.val j.ins.desc).2 ls.1 q).progress.settle := by
  intro ls q hp hc
  change execQntComplete n s = _
  rw [execQntComplete, hq]
  dsimp only
  rw [if_neg (by simp [hs]), ho]
  dsimp only
  rw [hp, hc, hb]
  exact happens_of hl _

end Quantiser

/-- Settles O20, row by row. -/
theorem quantiserEngineRows : Obligations.QuantiserEngineRows :=
  fun _ _ _ => ⟨fun _ => exec_qntRelease, fun _ => exec_qntComplete_sent, fun _ _ => exec_qntComplete⟩

/-! ## The vector engine (R128, R198, R440) -/

section Vector

variable {s : State} {n : CoreId} {x : CtxId}

/-- VEC_RELEASE of an instruction that nothing holds back and no check refuses (R198). -/
theorem exec_vecRelease {i : Ins} (hi : s.ready n.val x.val 1 = some i) (hd : s.vecRefusal n.val x.val i.desc = none)
    (hq : (s.core n.val).vec = none) (ht : s.turnOk n.val x.val (s.core n.val).turnV = true)
    (hr : s.notReady n.val x.val i (vReads i.desc) = none) (hv : s.qdrainFirst n.val x.val i = false)
    (hc : s.firstCome n.val x.val 1 i (s.vecMay n.val) = true)
    (hread : if opOf i.desc = 0x41 then s.drainStep n.val x.val i.seq (vArray i.desc) = 0 ∧ s.vecDeferred n.val x.val i.desc = none
      else s.vecReadRefusal n.val i.desc = none)
    (hf : s.fits n.val 10 = true) (hinj : (s.inject (pCOR n.val) 1).1 = false) :
    exec (.vecRelease n x) s = .next ((s.inject (pCOR n.val) 1).2.vecGate n.val x.val i).progress.settle := by
  change execVecRelease n x s = _
  by_cases hdr : opOf i.desc = 0x41
  · rw [if_pos hdr] at hread
    obtain ⟨hstep, hdef⟩ := hread
    have hm : s.vecMay n.val x.val i = true := by simp [State.vecMay, hr, hv, hstep]
    simp [execVecRelease, hi, hd, hq, ht, hm, hc, hdr, hstep, hdef, hf, hinj, State.advance_eq]
  · rw [if_neg hdr] at hread
    have hm : s.vecMay n.val x.val i = true := by simp [State.vecMay, hr, hv, hdr]
    simp [execVecRelease, hi, hd, hq, ht, hm, hc, hdr, hread, hf, hinj, State.advance_eq]

/-- VEC_COMPLETE of an instruction that reads no poisoned source and whose stores nothing pins (R199). -/
theorem exec_vecComplete {j : EngJob} (hl : s.live = true) (hq : (s.core n.val).vec = some j)
    (hb : s.vecFirstBad n.val j.ins.desc = none) :
    let w := s.vecWork n.val j.ins.desc j.step
    s.pinnedByOther n.val j.ctx j.ins.seq (writtenLines w.1.writes) = false →
    exec (.vecComplete n) s = .next (w.2.vecFinish n.val j.ctx j.ins w.1).progress.settle := by
  intro w hp
  change execVecComplete n s = _
  rw [execVecComplete, hq]
  dsimp only
  rw [hp, hb]
  exact happens_of hl _

end Vector

/-- Settles O22, row by row. -/
theorem vectorEngineRows : Obligations.VectorEngineRows :=
  fun _ _ _ => ⟨fun _ => exec_vecRelease, fun _ => exec_vecComplete⟩

/-! ## The DMA engine (R299, R308 to R311) -/

section Dma

variable {s : State} {n : CoreId} {x : CtxId}

/-- DMA_LINE_REQUEST of a job that has still to issue a piece, or to write one that had to wait (R299, R308). -/
theorem exec_dmaLineRequest_job {j : DmaJob} {t : State} (hl : s.live = true)
    (hroom : j.parked = [] → (s.core n.val).inFlight + s.pieceReqs j ≤ 4096)
    (hj : (s.core n.val).dma.find? (fun j => j.ctx == x.val && (!j.issued || j.parked != [])) = some j)
    (ht : s.dmaIssue n.val j = some t) : exec (.dmaLineRequest n x) s = .next t.progress.settle := by
  change execDmaLineRequest n x s = _
  rw [execDmaLineRequest, hl]
  dsimp only
  rw [hj]
  dsimp only
  rw [if_neg (by decide), if_neg (fun h => Nat.not_lt.2 (hroom h.1) h.2), ht]
  rfl

/-- DMA_LINE_REQUEST where no job of the context has a piece left: the next instruction is released to the engine (R308). -/
theorem exec_dmaLineRequest_release {i : Ins} {t : State} (hl : s.live = true)
    (hroom : (s.core n.val).inFlight + s.pieceReqs { ctx := x.val, ins := i } ≤ 4096)
    (hj : (s.core n.val).dma.find? (fun j => j.ctx == x.val && (!j.issued || j.parked != [])) = none)
    (hi : s.dmaNext n.val x.val = some i) (hf : s.fits n.val 0 = true) (hinj : (s.inject (pCOR n.val) 1).1 = false)
    (ht : ((s.inject (pCOR n.val) 1).2.takeDma n.val x.val i).dmaIssue n.val { ctx := x.val, ins := i } = some t) :
    exec (.dmaLineRequest n x) s = .next t.progress.settle := by
  change execDmaLineRequest n x s = _
  rw [execDmaLineRequest, hl]
  dsimp only
  rw [hj, hi]
  simp [Nat.not_lt.2 hroom, hf, hinj, ht, State.advance_eq]

/-- DMA_COMPLETE of a job whose every request is answered (R311). -/
theorem exec_dmaComplete {j : DmaJob} (hl : s.live = true)
    (hj : (s.core n.val).dma.find? (fun j => j.ctx == x.val && j.issued && j.open_ == 0) = some j) :
    let t := s.setCore n.val { s.core n.val with
      dma := (s.core n.val).dma.filter (fun e => !(e.ctx == x.val && e.ins.seq == j.ins.seq)) }
    let t := (t.setResident n.val j.ins.lines true).finishIns n.val x.val j.ins
    exec (.dmaComplete n x) s =
      .next ((t.freeDemand n.val x.val j.ins.seq).signalTally n.val x.val j.ins).progress.settle := by
  change execDmaComplete n x s = _
  rw [execDmaComplete]
  dsimp only
  rw [hj]
  exact happens_of hl _

end Dma

/-- Settles O23, row by row (`dmaRows` is the model's count of the rows of a DMA descriptor). -/
theorem dmaRows_hold : Obligations.DmaRows :=
  ⟨fun _ _ _ _ => exec_dma_decode, fun _ _ _ hl =>
    ⟨fun _ _ => exec_dmaLineRequest_job hl, fun _ _ => exec_dmaLineRequest_release hl, fun _ => exec_dmaComplete hl⟩⟩

end Sys2Proof.Machine
end

section
/-! SUPPORT. The proofs of the statements about the training step: the verdict, its rows, the barrier and pace (R215 to R222, R230,
R361 to R364). -/

namespace Sys2Proof.Machine

/-! ## The verdict record (R217, R218) -/

theorem VRec.combine_comm (a b : VRec) : a.combine b = b.combine a := by
  simp only [VRec.combine, Nat.or_comm, Nat.min_comm, Nat.max_comm]

theorem VRec.combine_assoc (a b c : VRec) : (a.combine b).combine c = a.combine (b.combine c) := by
  simp only [VRec.combine, Nat.or_assoc, Nat.min_assoc, Nat.max_assoc]

@[simp] theorem VRec.combine_flags (a b : VRec) : (a.combine b).flags = a.flags ||| b.flags := rfl

@[simp] theorem VRec.combine_smin (a b : VRec) : (a.combine b).smin = min a.smin b.smin := rfl

@[simp] theorem VRec.combine_smax (a b : VRec) : (a.combine b).smax = max a.smax b.smax := rfl

theorem VRec.positive_iff (r : VRec) : r.positive = true ↔ r.flags = 0 ∧ r.smin = r.smax := by
  simp [VRec.positive]

/-- The steps of two records whose bounds are in order span a single step exactly when each spans one and it is the same. -/
theorem min_eq_max_iff_of_le {i j k l : Nat} (hij : i ≤ j) (hkl : k ≤ l) : min i k = max j l ↔ i = j ∧ k = l ∧ i = k := by
  omega

theorem VRec.combine_positive_iff {a b : VRec} (ha : a.smin ≤ a.smax) (hb : b.smin ≤ b.smax) :
    (a.combine b).positive = true ↔ a.positive = true ∧ b.positive = true ∧ a.smin = b.smin := by
  simp only [VRec.positive_iff, VRec.combine_flags, VRec.combine_smin, VRec.combine_smax, Nat.or_eq_zero_iff,
    min_eq_max_iff_of_le ha hb]
  constructor
  · rintro ⟨⟨hfa, hfb⟩, hsa, hsb, hab⟩
    exact ⟨⟨hfa, hsa⟩, ⟨hfb, hsb⟩, hab⟩
  · rintro ⟨⟨hfa, hsa⟩, ⟨hfb, hsb⟩, hab⟩
    exact ⟨⟨hfa, hfb⟩, hsa, hsb, hab⟩

/-- Settles O37: `combine` is an OR, a minimum and a maximum, each of them commutative and associative. -/
theorem verdictCombine : Obligations.VerdictCombine :=
  fun a b c => ⟨a.combine_comm b, a.combine_assoc b c, rfl, rfl, Nat.testBit_or a.flags b.flags, VRec.combine_positive_iff⟩

/-! ## Rows that are served as an access of a page -/

/-- A row whose access reaches the package completes with the page's answer, whoever makes it. -/
theorem serveRow_of_reaches {s : State} {src : Src} (h : s.reaches src = true) (page off : Nat) (eff : Nat × State) :
    s.serveRow page off src eff = .next (s.answerWrite page off src eff).progress.settle := by
  cases src with
  | host => exact serveRow_host h page off eff
  | program n x => exact serveRow_program h page off eff
  | keyhole => exact serveRow_keyhole s page off eff

/-- A row that reaches a register its page answers, and that the page accepts, has its effect. -/
theorem serveRow_accepted {s t : State} {src : Src} (h : s.reaches src = true) {page off : Nat} (hp : s.pageCode page off = none) :
    s.serveRow page off src (cOK, t) = .next t.progress.settle := by
  rw [serveRow_of_reaches h, answerWrite_ok src hp rfl]

/-! ## The rows of the CFE: STEP_END, VERDICT_SET, EVAL (R215, R222, R230) -/

/-- What a write of GO to CFE.STEP_END does where nothing forbids it (R222). -/
theorem State.stepEndWrite_go {s : State} (hj : s.job = 2) (hm : s.machineTxn = none) (he : s.evalActive = false)
    (hg : s.genBase ≠ 2) (hs : s.step.stepEnd = false) (hn : s.step.ending = none) :
    s.stepEndWrite true = (cOK, ({ s with step := { s.step with stepEnd := true } } : State).contribute) := by
  simp [State.stepEndWrite, hj, hm, he, hg, hs, hn]

/-- A write of 1 to CFE.EVAL.ACTIVE needs that no machine transaction is open (R230). -/
theorem State.evalWrite_start {s : State} (hm : s.machineTxn = none) : s.evalWrite true = (cOK, s.setReg pCFE 0x1E8 1) := by
  simp [State.evalWrite, hm, b2n]

/-- Evaluation can be ended at any time (R230). -/
theorem State.evalWrite_end (s : State) : s.evalWrite false = (cOK, s.setReg pCFE 0x1E8 0) := rfl

section Row

variable {s : State} {src : Src} (h : s.reaches src = true)
include h

/-- STEP_END while a job runs with nothing that forbids it (R222). -/
theorem exec_stepEnd (hp : s.pageCode pCFE 0x188 = none) (hj : s.job = 2) (hm : s.machineTxn = none) (he : s.evalActive = false)
    (hg : s.genBase ≠ 2) (hs : s.step.stepEnd = false) (hn : s.step.ending = none) :
    exec (.stepEnd src) s =
      .next ({ s with step := { s.step with stepEnd := true } } : State).contribute.progress.settle := by
  change s.serveRow pCFE 0x188 src (s.stepEndWrite true) = _
  rw [State.stepEndWrite_go hj hm he hg hs hn, serveRow_accepted h hp]

theorem exec_verdictSet (hp : s.pageCode pCFE 0x1E0 = none) (b : Fin 8) :
    exec (.verdictSet b src) s = .next (s.verdictSet b.val).progress.settle :=
  serveRow_accepted h hp

theorem exec_evalStart (hp : s.pageCode pCFE 0x1E8 = none) (hm : s.machineTxn = none) :
    exec (.evalStart src) s = .next (s.setReg pCFE 0x1E8 1).progress.settle := by
  change s.serveRow pCFE 0x1E8 src (s.evalWrite true) = _
  rw [State.evalWrite_start hm, serveRow_accepted h hp]

theorem exec_evalEnd (hp : s.pageCode pCFE 0x1E8 = none) :
    exec (.evalEnd src) s = .next (s.setReg pCFE 0x1E8 0).progress.settle := by
  change s.serveRow pCFE 0x1E8 src (s.evalWrite false) = _
  rw [State.evalWrite_end, serveRow_accepted h hp]

end Row

/-! ## What the node does by itself: the end of the step, the barrier, pace (R219, R361 to R364) -/

section Live

variable {s : State} (hl : s.live = true)
include hl

/-- VERDICT_REDUCTION_COMPLETE decides the step on the record that the node carries (R218, R219). -/
theorem exec_verdictReductionComplete (hr : s.reductionDone = true) :
    exec .verdictReductionComplete s = .next (s.contribute.decideStep s.contribute.carriedRec
      s.contribute.carriedRec.positive false false).progress.settle :=
  happens_of (Bool.and_eq_true_iff.2 ⟨hl, hr⟩) _

/-- STEP_LOG_ACK of a written entry advances the step while no evaluation runs (R219, R230). -/
theorem exec_stepLogAck {e : Ending} (hn : s.step.ending = some e) (hlog : e.logged = true) (he : s.evalActive = false) :
    exec .stepLogAck s = .next (s.advanceStep e).progress.settle := by
  change execStepLogAck s = _
  rw [execStepLogAck, hn]
  exact happens_of (by rw [hl, hlog, he]; rfl) _

/-- BAR on a port that is UP is passed on and taken (R361). -/
theorem exec_bar {p : PortId} (hu : s.linkState p.val = 2) : exec (.bar p) s = .next s.sendBar.takeBar.progress.settle :=
  happens_of (by rw [hl, hu]; rfl) _

/-- BARRIER_RELEASE serves the oldest release that is due (R361). -/
theorem exec_barrierRelease {start : Bool} {r : List Bool} (hd : s.coll.barDue = start :: r) :
    let t : State := { s with coll := { s.coll with barDue := r } }
    exec .barrierRelease s = .next (if start then t.releaseJob else t.releaseStep).progress.settle := by
  intro t
  change execBarrierRelease s = _
  rw [execBarrierRelease, hd]
  exact happens_of hl _

/-- BAR_TIMEOUT ends the wait for a symbol (R362). -/
theorem exec_barTimeout (hw : s.coll.barWait = true) :
    exec .barTimeout s = .next (({ s with coll := { s.coll with barWait := false, barLate := true } } : State).raise
      (pCOL 0) 4).progress.settle :=
  happens_of (Bool.and_eq_true_iff.2 ⟨hl, hw⟩) _

/-- PACE_WINDOW of a package that is powered and at S3 or later (R363). -/
theorem exec_paceWindow {l : List (BitVec 32)} (hlen : l.length = 32) (hp : s.board.pwrgood = true) (hs : 3 ≤ s.stage) :
    exec (.paceWindow l) s = .next (s.pace (l.map (fun v => v.toNat))).progress.settle := by
  change execPaceWindow l s = _
  rw [execPaceWindow, wellFormed_of (by rw [hlen]; rfl)]
  exact happens_of (by rw [hl, hp, decide_eq_true hs]; rfl) _

end Live

/-- Settles O36, row by row. -/
theorem stepAndBarrierRows : Obligations.StepAndBarrierRows :=
  ⟨fun _ _ => ⟨fun h => ⟨exec_stepEnd h, exec_verdictSet h, fun hp => ⟨exec_evalStart h hp, exec_evalEnd h hp⟩⟩,
      exec_verdictReductionComplete, fun _ hl => exec_stepLogAck hl⟩,
    fun _ hl => ⟨fun _ => exec_bar hl, fun _ _ => exec_barrierRelease hl, exec_barTimeout hl, fun _ => exec_paceWindow hl⟩⟩

end Sys2Proof.Machine
end

section
/-! SUPPORT. The proofs of the statements about synchronisation: tallies, pools, and the rows of the sync units (R234 to R256, R519). -/

namespace Sys2Proof.Machine

/-! ## Pools (R239) -/

theorem servePool_covered {v : Nat} {w : Waiter} (h : w.amount ≤ v) (r : List Waiter) :
    servePool v (w :: r) =
      ((servePool (v - w.amount) r).1, w :: (servePool (v - w.amount) r).2.1, (servePool (v - w.amount) r).2.2) := if_pos h

/-- A taker that the value does not cover holds back all behind it. -/
theorem servePool_blocked {v : Nat} {w : Waiter} (h : v < w.amount) (r : List Waiter) :
    servePool v (w :: r) = (v, [], w :: r) := if_neg (Nat.not_le.2 h)

theorem servePool_append (v : Nat) (ws : List Waiter) : (servePool v ws).2.1 ++ (servePool v ws).2.2 = ws := by
  induction ws generalizing v with
  | nil => rfl
  | cons w r ih =>
    rcases Nat.lt_or_ge v w.amount with hlt | hge
    · rw [servePool_blocked hlt, List.nil_append]
    · rw [servePool_covered hge, List.cons_append, ih]

theorem servePool_sum (v : Nat) (ws : List Waiter) :
    (servePool v ws).1 + ((servePool v ws).2.1.map (fun w => w.amount)).sum = v := by
  induction ws generalizing v with
  | nil => rfl
  | cons w r ih =>
    rcases Nat.lt_or_ge v w.amount with hlt | hge
    · rw [servePool_blocked hlt]
      rfl
    · rw [servePool_covered hge, List.map_cons, List.sum_cons]
      have hrest := ih (v - w.amount)
      omega

theorem servePool_lt_head (v : Nat) (ws : List Waiter) :
    ∀ w, (servePool v ws).2.2.head? = some w → (servePool v ws).1 < w.amount := by
  induction ws generalizing v with
  | nil => nofun
  | cons w r ih =>
    rcases Nat.lt_or_ge v w.amount with hlt | hge
    · rw [servePool_blocked hlt]
      intro u hu
      cases hu
      exact hlt
    · rw [servePool_covered hge]
      exact ih (v - w.amount)

/-- As long as the value covers the first takers together, they are served. -/
theorem le_length_servePool {v k : Nat} {ws : List Waiter} (hk : k ≤ ws.length)
    (h : ∀ j, j ≤ k → ((ws.take j).map (fun w => w.amount)).sum ≤ v) : k ≤ (servePool v ws).2.1.length := by
  induction ws generalizing v k with
  | nil => exact hk
  | cons w r ih =>
    cases k with
    | zero => exact Nat.zero_le _
    | succ k =>
      have hw : w.amount ≤ v := by simpa using h 1 (by omega)
      rw [servePool_covered hw, List.length_cons]
      refine Nat.succ_le_succ (ih (Nat.le_of_succ_le_succ hk) fun j hj => ?_)
      have hsum := h (j + 1) (Nat.succ_le_succ hj)
      rw [List.take_succ_cons, List.map_cons, List.sum_cons] at hsum
      omega

/-- Settles O15, by induction on the takers. -/
theorem poolServesInOrder : Obligations.PoolServesInOrder := fun v ws =>
  ⟨servePool_append v ws, servePool_sum v ws, servePool_lt_head v ws, fun _ h hk =>
    le_length_servePool hk fun j hj => h j hj (Nat.le_trans hj hk)⟩

/-! ## Tallies (R236) -/

/-- The comparison of R236 is the sign of the difference. -/
theorem reached_iff_nonneg (v t : BitVec 64) : reached v.toNat t.toNat = decide (0 ≤ (v - t).toInt) := by
  have hv : v.toNat < 2 ^ 64 := v.isLt
  have ht : t.toNat < 2 ^ 64 := t.isLt
  have hd : (v - t).toNat = (v.toNat + 2 ^ 64 - t.toNat % 2 ^ 64) % 2 ^ 64 := by
    rw [BitVec.toNat_sub, Nat.mod_eq_of_lt ht]
    congr 1
    omega
  rw [reached, ← hd, decide_eq_decide, BitVec.toInt_eq_toNat_cond]
  split <;> omega

/-! ## What the operations on objects leave (R236, R243) -/

theorem State.obj_congr {s t : State} (h : t.sync.objs = s.sync.objs) (u k i : Nat) : t.obj u k i = s.obj u k i := by
  rw [State.obj, State.obj, h]

@[simp] theorem State.sendWake_objs (s : State) (key : Nat) (w : Waiter) (status : Nat) :
    (s.sendWake key w status).sync.objs = s.sync.objs := by
  unfold State.sendWake
  split <;> rfl

@[simp] theorem State.sendWake_mem (s : State) (key : Nat) (w : Waiter) (status : Nat) :
    (s.sendWake key w status).mem = s.mem := by
  unfold State.sendWake
  split <;> rfl

@[simp] theorem State.countWatches_sync (s : State) (unit : Nat) : (s.countWatches unit).sync = s.sync := by
  unfold State.countWatches
  split <;> rfl

@[simp] theorem State.countWatches_mem (s : State) (unit : Nat) : (s.countWatches unit).mem = s.mem := by
  unfold State.countWatches
  split <;> rfl

@[simp] theorem State.raiseIf_sync (s : State) (b : Bool) (page bit : Nat) : (s.raiseIf b page bit).sync = s.sync :=
  State.sync_of_unraised (State.raiseIf_unraised s b page bit)

@[simp] theorem State.raiseIf_mem (s : State) (b : Bool) (page bit : Nat) : (s.raiseIf b page bit).mem = s.mem :=
  State.mem_of_unraised (State.raiseIf_unraised s b page bit)

/-- A tally without the waiters that its value satisfies. -/
def Obj.unwatched (o : Obj) : Obj := { o with waiters := o.waiters.filter (fun w => !reached o.value w.amount) }

/-- Evaluating a tally takes its satisfied waiters, and changes no object otherwise (R243 step 6). -/
theorem State.evalTally_objs (s : State) (unit idx : Nat) :
    (s.evalTally unit idx).sync.objs = (s.setObj unit 0 idx (s.obj unit 0 idx).unwatched).sync.objs := by
  unfold State.evalTally
  dsimp only
  rw [State.countWatches_sync, foldl_keep (fun t => t.sync.objs) _ fun t w => State.sendWake_objs t _ w _]
  rfl

theorem State.obj_evalTally_self {s : State} (h : Tab.sortedFrom 0 s.sync.objs = true) (unit idx : Nat) :
    (s.evalTally unit idx).obj unit 0 idx = (s.obj unit 0 idx).unwatched := by
  rw [State.obj_congr (State.evalTally_objs s unit idx)]
  exact Tab.get_set_self h _ _ _

@[simp] theorem State.evalTally_mem (s : State) (unit idx : Nat) : (s.evalTally unit idx).mem = s.mem := by
  unfold State.evalTally
  dsimp only
  rw [State.countWatches_mem, foldl_keep State.mem _ fun t w => State.sendWake_mem t _ w _, State.setObj_mem]

/-- A tally after an addition (R235, R236). -/
def Obj.plus (o : Obj) (amount : Nat) (a : Signaller) : Obj :=
  { o with value := (o.value + amount) % 2 ^ 64, wrap := o.wrap || decide (2 ^ 64 ≤ o.value + amount) }.signalled a

@[simp] theorem Obj.plus_unwatched_value (o : Obj) (amount : Nat) (a : Signaller) :
    (o.plus amount a).unwatched.value = (o.value + amount) % 2 ^ 64 := rfl

@[simp] theorem Obj.plus_unwatched_wrap (o : Obj) (amount : Nat) (a : Signaller) :
    (o.plus amount a).unwatched.wrap = (o.wrap || decide (2 ^ 64 ≤ o.value + amount)) := rfl

section AddTally

variable {s : State} {unit idx : Nat} (h : s.orphaned unit 0 idx = false) (amount : Nat) (a : Signaller)
include h

/-- An addition to a tally that is not orphaned: the object, the event of a wrap, the waiters that it satisfies. -/
theorem State.addTally_of_owned : s.addTally unit idx amount a =
    (cOK, ((s.setObj unit 0 idx ((s.obj unit 0 idx).plus amount a)).raiseIf
      (decide (2 ^ 64 ≤ (s.obj unit 0 idx).value + amount)) (pSYN unit) 3).evalTally unit idx) := by
  rw [State.addTally, h]
  rfl

theorem State.addTally_code : (s.addTally unit idx amount a).1 = cOK := by
  rw [State.addTally_of_owned h]

theorem State.addTally_mem : (s.addTally unit idx amount a).2.mem = s.mem := by
  rw [State.addTally_of_owned h, State.evalTally_mem, State.raiseIf_mem, State.setObj_mem]

/-- The tally that was added to. -/
theorem State.obj_addTally_self (hs : Tables.wf s = true) :
    (s.addTally unit idx amount a).2.obj unit 0 idx = ((s.obj unit 0 idx).plus amount a).unwatched := by
  obtain ⟨-, -, hobjs, -⟩ := Tables.wf_parts hs
  rw [State.addTally_of_owned h, State.obj_evalTally_self, State.obj_congr (congrArg SyncSt.objs (State.raiseIf_sync _ _ _ _)),
    State.obj_setObj hs]
  rw [State.raiseIf_sync]
  exact Tab.sortedFrom_set (Tab.wf_sorted hobjs)

/-- Every other object. -/
theorem State.obj_addTally_ne {u k i : Nat} (hne : objKey u k i ≠ objKey unit 0 idx) :
    (s.addTally unit idx amount a).2.obj u k i = s.obj u k i := by
  rw [State.addTally_of_owned h, State.obj_congr (State.evalTally_objs _ unit idx), State.obj_setObj_ne _ _ hne,
    State.obj_congr (congrArg SyncSt.objs (State.raiseIf_sync _ _ _ _)), State.obj_setObj_ne _ _ hne]

end AddTally

/-- Within a unit the key of an object gives its kind and its index. -/
theorem objKey_inj {unit k j k' j' : Nat} (hj : j < 8192) (hj' : j' < 8192) :
    objKey unit k j = objKey unit k' j' ↔ k = k' ∧ j = j' := by
  unfold objKey
  omega

/-- A tally after the host has written its value: WRAP is clear (R236). -/
theorem State.writeValue_tally {s : State} {unit : Nat} (hj : s.jobBusy = false) (hk : (s.synSel unit).1 = 0) (v : Word) :
    s.writeValue unit v = (cOK, s.setObj unit 0 (s.synSel unit).2
      { s.obj unit 0 (s.synSel unit).2 with
        value := v.toNat
        wrap := false }) := by
  simp [State.writeValue, hj, hk]

theorem State.writeValue_pool {s : State} {unit : Nat} (hj : s.jobBusy = false) (hk : (s.synSel unit).1 = 1) {v : Word}
    (hv : fld v 31 0 < 2 ^ 31) :
    s.writeValue unit v = (cOK, s.setObj unit 1 (s.synSel unit).2
      { s.obj unit 1 (s.synSel unit).2 with value := fld v 31 0 }) := by
  rw [State.writeValue]
  dsimp only
  rw [hj, hk, if_neg (by decide), if_neg (fun h => Nat.not_lt.2 h.2 hv), if_pos rfl]

/-- Settles O14: the second write of the tally, when its waiters are taken, keeps what the addition has stored. -/
theorem tallyReachedAndWrap : Obligations.TallyReachedAndWrap := by
  refine ⟨reached_iff_nonneg, ?_, ?_⟩
  · intro s unit idx amount a ⟨_, _, hs⟩ _ hidx h o t
    have hobj : t.obj unit 0 idx = (o.plus amount a).unwatched := State.obj_addTally_self h amount a hs
    rw [hobj]
    refine ⟨State.addTally_code h amount a, rfl, rfl, State.addTally_mem h amount a, fun k j _ hj hne => ?_⟩
    refine State.obj_addTally_ne h amount a ?_
    rw [Ne, objKey_inj hj hidx, ← Prod.mk.injEq]
    exact hne
  · intro s unit v ⟨_, _, hs⟩ hj hk
    rw [State.writeValue_tally hj hk]
    dsimp only
    rw [State.obj_setObj hs]
    exact ⟨rfl, rfl, rfl⟩

/-! ## What a running package serves: requests, wakes, cancels, timeouts, signals, packets (R234, R243 to R245, R333, R519) -/

section Live

variable {s : State} (hl : s.live = true)
include hl

/-- WATCH_REQUEST serves the request that is next at its die (R243, R250). -/
theorem exec_watchRequest {d : DieId} {r : SyncReq} (hr : s.nextReq d.val = some r) :
    exec (.watchRequest d) s = .next (s.serveWatch r).settle := by
  change execWatchRequest d s = _
  rw [execWatchRequest, hr]
  exact occurs_of hl _

/-- WAKE of a message on a wire of the node (R243). -/
theorem exec_wake_wire {w : WakeMsg} (hw : w ∈ s.sync.wakes) :
    exec (.wake w) s =
      .next (({ s with sync := { s.sync with wakes := s.sync.wakes.erase w } } : State).deliverWake w).progress.settle := by
  change execWake w s = _
  rw [execWake, if_pos (by simpa using hw)]
  exact happens_of hl _

/-- WAKE of a message that a packet has brought (R243, R333). -/
theorem exec_wake_packet {w : WakeMsg} {p : Packet} (hw : w ∉ s.sync.wakes) (hp : s.wakePacket w = some p) :
    exec (.wake w) s = .next ((s.takeArrival p).deliverWake w).progress.settle := by
  change execWake w s = _
  rw [execWake, if_neg (by simpa using hw), hp]
  exact happens_of hl _

/-- CANCEL of a wait whose request has been served (R245, R248). -/
theorem exec_cancel {d : DieId} {c : CancelMsg} (hc : (d.val, c) ∈ s.sync.cancels)
    (hr : s.sync.reqs.all (fun r => !(r.die == d.val && r.node == c.node && r.core == c.core && r.ctx == c.ctx && r.tag == c.tag))) :
    let r := ({ s with sync := { s.sync with cancels := s.sync.cancels.erase (d.val, c) } } : State).freeWatch
      (144 + d.val) c.node c.core c.ctx c.tag
    exec (.cancel d c) s =
      .next ((if r.1 && !c.gone then r.2.timedOut (144 + d.val) else r.2).answerCancel d.val c r.1).settle := by
  intro r
  refine occurs_of ?_ _
  rw [List.any_eq_not_all_not, hr, hl, List.contains_iff_mem.2 hc]
  rfl

/-- WATCH_TIMEOUT of a timed wait of a running context (R245). -/
theorem exec_watchTimeout {n : CoreId} {x : CtxId} {w : WaitSt} (hw : (s.ctx n.val x.val).wait = some w) (ht : w.timed = true)
    (hwait : w.isWait = true) (hc : w.cancelled = false) (hx : s.ctxState n.val x.val = 1) :
    exec (.watchTimeout n x) s = .next (s.expireWait n.val x.val w).progress.settle := by
  change execWatchTimeout n x s = _
  rw [execWatchTimeout, hw]
  exact happens_of (by rw [hl, ht, hwait, hc, hx]; rfl) _

/-- ENGINE_SIGNAL applies the oldest signal of its core (R234). -/
theorem exec_engineSignal {n : CoreId} {g : Signal} (hg : s.sync.signals.find? (fun g => g.core == n.val) = some g) :
    exec (.engineSignal n) s =
      .next (({ s with sync := { s.sync with signals := s.sync.signals.erase g } } : State).applySignal g).settle := by
  change execEngineSignal n s = _
  rw [execEngineSignal, hg]
  exact occurs_of hl _

/-- SYNC takes a packet that has left the torus (R333, R519). -/
theorem exec_sync {p : Packet} (hp : pktOk 0x04 1 1 p = true) :
    exec (.sync p) s = .next ((s.takeArrival p).takeSync p (s.arrivalSlot p)).progress.settle := by
  change execSync p s = _
  rw [execSync, wellFormed_of hp]
  exact happens_of hl _

end Live

/-! ## The operations of the host on an object (R247, R251, R256) -/

/-- The state in which the host's operation is served: a die unit's rotation has gone on behind the host's slot (R250). -/
def State.tookHost (s : State) (unit : Nat) : State := if 144 ≤ unit then s.tookSlot (unit - 144) 300 else s

/-- The host as the signaller of an addition (R256). -/
def State.hostSignaller (s : State) : Signaller := { node := s.nodeId, core := 0xFF, ctx := 0, pc := 0, step := s.stepNo }

/-- A rotation leaves objects and contexts. -/
theorem State.tookHost_objs (s : State) (unit : Nat) : (s.tookHost unit).sync.objs = s.sync.objs := by
  unfold State.tookHost State.tookSlot
  split_ifs <;> rfl

theorem State.tookHost_orphaned (s : State) (unit u k i : Nat) : (s.tookHost unit).orphaned u k i = s.orphaned u k i := by
  unfold State.tookHost State.tookSlot
  split_ifs <;> rfl

theorem State.addPool_code {s : State} {unit idx amount : Nat} (h : s.orphaned unit 1 idx = false)
    (hv : (s.obj unit 1 idx).value + amount < 2 ^ 31) (a : Signaller) : (s.addPool unit idx amount a).1 = cOK := by
  rw [State.addPool, h]
  dsimp only
  rw [if_neg (by decide), if_neg (Nat.not_le.2 hv)]

section HostOp

variable {s : State} {unit idx : Nat} (hrun : (s.fixedRun && s.job == 2) = false)
include hrun

/-- OP 0 adds to a tally (R256). -/
theorem State.hostOp_add {amount : Nat} (hi : idx < objCount unit 0) (ha : amount ≠ 0) :
    s.hostOp unit 0 0 idx amount = (s.tookHost unit).addTally unit idx amount s.hostSignaller := by
  rw [State.hostOp]
  exact (if_neg (by simp [hi, ha])).trans (if_neg (by simp [hrun]))

/-- OP 1 puts into a pool (R256). -/
theorem State.hostOp_put {amount : Nat} (hi : idx < objCount unit 1) (ha : amount ≠ 0) (hlt : amount < 2 ^ 31) :
    s.hostOp unit 1 1 idx amount = (s.tookHost unit).addPool unit idx amount s.hostSignaller := by
  rw [State.hostOp]
  exact (if_neg (by omega)).trans (if_neg (by simp [hrun]))

/-- OP 2 releases an object of a die unit (R247, R256). -/
theorem State.hostOp_release {kind : Nat} (hu : 144 ≤ unit) (hi : idx < objCount unit kind) :
    s.hostOp unit 2 kind idx 0 = (cOK, (s.tookHost unit).hostRelease unit kind idx) := by
  rw [State.hostOp]
  exact (if_neg (by omega)).trans (if_neg (by simp [hrun]))

end HostOp

section Host

variable {s : State} {u : Fin 148} {k : Fin 8192} (h : s.hostReach = true)
include h

/-- A row of the host that its page serves and accepts has its effect. -/
theorem serveRow_host_of_ok {page off : Nat} (hp : s.pageCode page off = none) {eff : Nat × State} (hc : eff.1 = cOK) :
    s.serveRow page off .host eff = .next eff.2.progress.settle := by
  rw [serveRow_host h, answerWrite_ok .host hp hc]

section Op

variable {n : BitVec 32} (hp : s.pageCode (pSYN u.val) 0x178 = none) (hrun : (s.fixedRun && s.job == 2) = false)
include hp hrun

theorem exec_synHostAdd (hk : k.val < objCount u.val 0) (hn : n ≠ 0) (ho : s.orphaned u.val 0 k.val = false) :
    exec (.synHostAdd u k n) s =
      .next ((s.tookHost u.val).addTally u.val k.val n.toNat s.hostSignaller).2.progress.settle := by
  have hn' : n.toNat ≠ 0 := fun e => hn (BitVec.eq_of_toNat_eq e)
  change s.serveRow (pSYN u.val) 0x178 .host (s.hostOp u.val 0 0 k.val n.toNat) = _
  rw [State.hostOp_add hrun hk hn']
  exact serveRow_host_of_ok h hp (State.addTally_code (by rw [State.tookHost_orphaned, ho]) _ _)

theorem exec_synHostPut (hk : k.val < objCount u.val 1) (hn : n ≠ 0) (hlt : n.toNat < 2 ^ 31) (ho : s.orphaned u.val 1 k.val = false)
    (hv : (s.obj u.val 1 k.val).value + n.toNat < 2 ^ 31) :
    exec (.synHostPut u k n) s =
      .next ((s.tookHost u.val).addPool u.val k.val n.toNat s.hostSignaller).2.progress.settle := by
  have hn' : n.toNat ≠ 0 := fun e => hn (BitVec.eq_of_toNat_eq e)
  change s.serveRow (pSYN u.val) 0x178 .host (s.hostOp u.val 1 1 k.val n.toNat) = _
  rw [State.hostOp_put hrun hk hn' hlt]
  refine serveRow_host_of_ok h hp (State.addPool_code (by rw [State.tookHost_orphaned, ho]) ?_ _)
  rw [State.obj_congr (s.tookHost_objs u.val)]
  exact hv

theorem exec_synHostRelease {kind : Bool} (hu : 144 ≤ u.val) (hk : k.val < objCount u.val (b2n kind)) :
    exec (.synHostRelease u kind k) s = .next ((s.tookHost u.val).hostRelease u.val (b2n kind) k.val).progress.settle := by
  change s.serveRow (pSYN u.val) 0x178 .host (s.hostOp u.val 2 (b2n kind) k.val 0) = _
  rw [State.hostOp_release hrun hu hk]
  exact serveRow_host_of_ok h hp rfl

end Op

section Value

variable {v : Word} (hp : s.pageCode (pSYN u.val) 0x108 = none) (hj : s.jobBusy = false)
include hp hj

/-- SYN_VALUE_WRITE of a tally clears WRAP (R236, R256). -/
theorem exec_synValueWrite_tally (hk : (s.synSel u.val).1 = 0) :
    exec (.synValueWrite u v) s = .next (s.setObj u.val 0 (s.synSel u.val).2
      { s.obj u.val 0 (s.synSel u.val).2 with
        value := v.toNat
        wrap := false }).progress.settle := by
  change s.serveRow (pSYN u.val) 0x108 .host (s.writeValue u.val v) = _
  rw [State.writeValue_tally hj hk]
  exact serveRow_host_of_ok h hp rfl

theorem exec_synValueWrite_pool (hk : (s.synSel u.val).1 = 1) (hv : fld v 31 0 < 2 ^ 31) :
    exec (.synValueWrite u v) s = .next (s.setObj u.val 1 (s.synSel u.val).2
      { s.obj u.val 1 (s.synSel u.val).2 with value := fld v 31 0 }).progress.settle := by
  change s.serveRow (pSYN u.val) 0x108 .host (s.writeValue u.val v) = _
  rw [State.writeValue_pool hj hk hv]
  exact serveRow_host_of_ok h hp rfl

end Value

end Host

/-- SEL takes its bits; SNAP besides decides whether the view is captured (R256). -/
theorem State.writeSel_of_lt {unit : Nat} {v : Word} (h : fld v 12 0 < objCount unit (fld v 13 13)) (s : State) :
    (s.writeSel unit v).1 = cOK ∧ (s.writeSel unit v).2.regs = (s.setReg (pSYN unit) 0x100 (v &&& mask 13 0)).regs ∧
      (s.writeSel unit v).2.sync.objs = s.sync.objs ∧ (s.writeSel unit v).2.mem = s.mem := by
  rw [State.writeSel]
  dsimp only
  rw [if_neg (Nat.not_le.2 h)]
  exact ⟨rfl, rfl, rfl, rfl⟩

/-- SYN_SEL_WRITE, whoever makes it (R256). -/
theorem exec_synSelWrite {s : State} {u : Fin 148} {v : Word} {src : Src} (h : s.reaches src = true)
    (hp : s.pageCode (pSYN u.val) 0x100 = none) (hv : fld v 12 0 < objCount u.val (fld v 13 13)) :
    ∃ t : State, exec (.synSelWrite u v src) s = .next t.progress.settle ∧
      t.regs = (s.setReg (pSYN u.val) 0x100 (v &&& mask 13 0)).regs ∧ t.sync.objs = s.sync.objs ∧ t.mem = s.mem := by
  obtain ⟨hcode, heff⟩ := State.writeSel_of_lt hv s
  refine ⟨(s.writeSel u.val v).2, ?_, heff⟩
  change s.serveRow (pSYN u.val) 0x100 src (s.writeSel u.val v) = _
  rw [serveRow_of_reaches h, answerWrite_ok src hp hcode]

/-- Settles O17, row by row. -/
theorem syncRows : Obligations.SyncRows :=
  ⟨fun _ hl => ⟨fun _ _ => exec_watchRequest hl, fun _ => exec_wake_wire hl, fun _ _ => exec_wake_packet hl,
      fun _ _ => exec_cancel hl, fun _ _ _ => exec_watchTimeout hl, fun _ _ => exec_engineSignal hl⟩,
    fun _ _ hl => exec_sync hl,
    fun _ _ _ _ h hp hrun => ⟨exec_synHostAdd h hp hrun, exec_synHostPut h hp hrun, fun _ => exec_synHostRelease h hp hrun,
      fun _ _ => exec_synSelWrite, fun _ => exec_synValueWrite_tally h, fun _ => exec_synValueWrite_pool h⟩⟩

end Sys2Proof.Machine
end

section
/-! SUPPORT. The proofs of the statements about transactions and collectives: the decode of their instructions, and the rows of
tagged lines, of the commit window and of RESOLVE (R260 to R280, R287, R352, R366). -/

namespace Sys2Proof.Machine

/-! ## A context that is set keeps the canonical form -/

theorem Tab.wf_set {α : Type} [DecidableEq α] {t : Tab α} {d : α} (h : Tab.wf (isFresh d) t = true) (k : Nat) (v : α) :
    Tab.wf (isFresh d) (Tab.set t d k v) = true := by
  unfold Tab.set
  split
  · exact Tab.wf_del h k
  · next hv => exact Tab.wf_put h (beq_false_of_ne hv)

theorem Tables.wf_setCtx {s : State} (h : Tables.wf s = true) (n x : Nat) (c : Ctx) : Tables.wf (s.setCtx n x c) = true := by
  obtain ⟨hcores, hrest⟩ := Tables.wf_parts h
  have hset : Tab.wf (isFresh {}) (s.setCtx n x c).cores = true := Tab.wf_set hcores n _
  simpa [Tables.wf, and_assoc] using And.intro hset hrest

theorem inv_setCtx {s : State} (h : Safety.Inv s) (n x : Nat) (c : Ctx) : Safety.Inv (s.setCtx n x c) := by
  obtain ⟨hregs, hmem, htables⟩ := h
  exact ⟨hregs, hmem, Tables.wf_setCtx htables n x c⟩

/-! ## The decode of transaction and collective instructions (R118, R268 to R277, R352, R366) -/

section Decode

variable {s : State} {i : Issue} {op : Nat} (hs : Safety.Inv s)
include hs

/-- Whatever lines it will write, a transaction descriptor that no check refuses enters the sync queue. -/
theorem State.issueTxn_of_decodes (hop : fld i.desc.w0 7 0 = op) (hd : Safety.Decodes s i 4)
    (hbad : s.txnRefusal i.core.val i.ctx.val i.desc = none) (lines : List Nat) :
    ∃ u, s.issueTxn op lines i = .next u.progress.settle ∧ Safety.Decoded s u i 4 := by
  obtain ⟨u, hu, he⟩ := State.issueGen_of_decodes hs hd lines
  refine ⟨u, ?_, hu⟩
  rw [State.issueTxn, wellFormed_of (opOk_of_own hop _), State.issue, hbad]
  exact he

/-- TXO, TXC, TXA and TXE (R268, R273, R274, R277). -/
theorem exec_txn_decode {c : Issue → Instr}
    (hc : (c, op) ∈ [(Instr.txo, 0x61), (Instr.txc, 0x62), (Instr.txa, 0x63), (Instr.txe, 0x64)])
    (hop : fld i.desc.w0 7 0 = op) (hd : Safety.Decodes s i 4) (hbad : s.txnRefusal i.core.val i.ctx.val i.desc = none) :
    ∃ u, exec (c i) s = .next u.progress.settle ∧ Safety.Decoded s u i 4 := by
  have hrow : ∃ lines, exec (c i) s = s.issueTxn op lines i := by fin_cases hc <;> exact ⟨_, rfl⟩
  obtain ⟨lines, hrow⟩ := hrow
  rw [hrow]
  exact State.issueTxn_of_decodes hs hop hd hbad lines

/-- TXB: the decode proper starts from the state that has noted STATUS_ADDR (R272, R287). -/
theorem exec_txb_decode (hop : fld i.desc.w0 7 0 = 0x60) (hd : Safety.Decodes (s.noteStatus i.core.val i.ctx.val i.desc) i 4)
    (hbad : (s.noteStatus i.core.val i.ctx.val i.desc).txnRefusal i.core.val i.ctx.val i.desc = none) :
    ∃ u, exec (.txb i) s = .next u.progress.settle ∧ Safety.Decoded (s.noteStatus i.core.val i.ctx.val i.desc) u i 4 :=
  State.issueTxn_of_decodes (inv_setCtx hs _ _ _) hop hd hbad []

/-- ALLREDUCE, REDUCESCATTER, ALLGATHER and BROADCAST: one opcode, told apart by bits 26:24 (R352, R366). -/
theorem exec_coll_decode {c : Issue → Instr}
    (hc : (c, op) ∈ [(Instr.allreduce, 0), (Instr.reducescatter, 1), (Instr.allgather, 2), (Instr.broadcast, 3)])
    (hcls : fld i.desc.w0 7 0 = 0x70) (hop : fld i.desc.w0 26 24 = op) (hd : Safety.Decodes s i 3)
    (hbad : s.collRefusal i.core.val i.ctx.val i.desc = none) :
    ∃ u, exec (c i) s = .next u.progress.settle ∧ Safety.Decoded s u i 3 := by
  obtain ⟨u, hu, he⟩ := State.issueGen_of_decodes hs hd []
  have hrow : exec (c i) s = s.issueColl op i := by fin_cases hc <;> rfl
  have hown : collOk op i.desc = true := by simp [collOk, hop]
  refine ⟨u, ?_, hu⟩
  rw [hrow, State.issueColl, wellFormed_of (Bool.and_eq_true_iff.2 ⟨hown, opOk_of_own hcls _⟩), State.issue, hbad]
  exact he

end Decode

/-- Settles O33: one decode per class, which differs in the opcode and in the lines to be written. -/
theorem transactionAndCollectiveInstructionsDecode : Obligations.TransactionAndCollectiveInstructionsDecode :=
  ⟨fun _ _ hs => ⟨fun _ _ => exec_txn_decode hs, fun hop _ => exec_txb_decode hs hop⟩,
    fun _ _ _ _ hc hs => exec_coll_decode hs hc⟩

/-! ## Tagged lines and the commit window (R260, R265, R273, R277) -/

section Live

variable {s : State} (hl : s.live = true)
include hl

/-- TAGGED_WRITE of a member, within one line of memory, that need not wait (R260, R274, R277). -/
theorem exec_taggedWrite {n : CoreId} {x : CtxId} {a : BitVec 48} {d : List Byte} {id c : Nat} {t : State} (hd : d ≠ [])
    (hline : a.toNat % 64 + d.length ≤ 64) (hmem : a.toNat + d.length ≤ s.hbmEnd) (hx : (s.ctx n.val x.val).txn = some id)
    (ht : s.tagWrite id n.val x.val a.toNat d false = some (c, t)) :
    exec (.taggedWrite n x a d) s =
      .next (if c = cOK then t else t.faultStore n.val x.val 0x21 c).progress.settle := by
  change execTaggedWrite n x a d s = _
  have hform : (d != [] && decide (a.toNat % 64 + d.length ≤ 64 ∧ a.toNat + d.length ≤ s.hbmEnd)) = true := by
    simp [hd, hline, hmem]
  rw [execTaggedWrite, wellFormed_of hform, hx]
  dsimp only
  rw [ht]
  exact happens_of hl _

/-- COMMIT_WINDOW_CLOSE of a transaction in COMMITTING (R273). -/
theorem exec_commitWindowClose {id : Nat} {t : Txn} (ht : s.findTxn id = some t) (hst : t.state = 3) :
    exec (.commitWindowClose id) s = .next (s.closeWindow id).serveAllWaiting.progress.settle := by
  change execCommitWindowClose id s = _
  rw [execCommitWindowClose, ht]
  exact happens_of (by rw [hl, hst]; rfl) _

/-- TAGGED_LINE_WRITEBACK of a line that no open transaction owns (R265). -/
theorem exec_taggedLineWriteback {line : BitVec 42} {l : TLine} (ht : s.taggedAt line.toNat = some l) (ho : l.owner = none) :
    exec (.taggedLineWriteback line) s = .next (({ s with txn := { s.txn with
      tagged := s.txn.tagged.filter (fun k => k.line != line.toNat) } } : State).txnRegs).progress.settle := by
  change execTaggedLineWriteback line s = _
  rw [execTaggedLineWriteback, ht]
  exact happens_of (by rw [hl, ho]; rfl) _

end Live

/-! ## The host's resolution (R278) -/

/-- Of an undecided machine transaction the host may write 1, to commit, or 2, to abort. -/
theorem State.resolve_of_undecided {s : State} {v : Nat} {t : Txn} (hv : v = 1 ∨ v = 2) (hm : s.machineTxn = some t)
    (hst : t.state = 4) :
    s.resolve v = (cOK, s.decideStep
      { flags := if v = 1 then 0 else s.ownRec.flags ||| 2, smin := s.stepNo, smax := s.stepNo } (v == 1) false true) := by
  have hrange : ¬(v ≠ 1 ∧ v ≠ 2) := by omega
  rw [State.resolve, if_neg hrange, hm]
  exact if_neg (not_not.2 hst)

theorem exec_resolve {s : State} {v : Fin 4} {src : Src} {t : Txn} (h : s.reaches src = true)
    (hp : s.pageCode (pTXN 0) 0x138 = none) (hv : v.val = 1 ∨ v.val = 2) (hm : s.machineTxn = some t) (hst : t.state = 4) :
    exec (.resolve v src) s = .next (s.decideStep
      { flags := if v.val = 1 then 0 else s.ownRec.flags ||| 2, smin := s.stepNo, smax := s.stepNo } (v.val == 1) false
      true).progress.settle := by
  change s.serveRow (pTXN 0) 0x138 src (s.resolve v.val) = _
  rw [State.resolve_of_undecided hv hm hst, serveRow_accepted h hp]

/-- Settles O34, row by row. -/
theorem transactionRows : Obligations.TransactionRows :=
  fun _ hl => ⟨fun _ _ _ _ _ _ hd hline hmem hx _ => exec_taggedWrite hl hd hline hmem hx,
    fun _ _ => exec_commitWindowClose hl, fun _ _ _ => exec_resolve, fun _ _ => exec_taggedLineWriteback hl⟩

end Sys2Proof.Machine
end

section
/-! SUPPORT. The proofs of the statements about the memory itself: what a write stores and leaves, poison, the interleave of the
HBM, the 64-bit accumulator (R293, R302, R303, R314). -/

namespace Sys2Proof.Machine

/-! ## A write stores its bytes and cleans the lines that it covers (R314) -/

theorem Mem.byte_putBytes_in {m : Mem} (h : Memory.wf m = true) (a : Nat) {bs : List Byte} {k : Nat} (hk : k < bs.length) :
    (m.putBytes a bs).byte (a + k) = bs[k] := by
  induction bs generalizing m a k with
  | nil => cases hk
  | cons v r ih =>
    cases k with
    | zero => exact (Mem.byte_putBytes_out _ _ r a (.inl (Nat.lt_succ_self a))).trans (Mem.byte_putByte_self h a v)
    | succ k =>
      rw [Mem.putBytes, show a + (k + 1) = a + 1 + k by omega]
      exact ih (Memory.wf_putByte h a v) (a + 1) (Nat.lt_of_succ_lt_succ hk)

theorem Mem.byte_write_in {m : Mem} (h : Memory.wf m = true) (a : Nat) {bs : List Byte} {k : Nat} (hk : k < bs.length) :
    (m.write a bs).byte (a + k) = bs[k] := by
  rw [Mem.write, Mem.byte_foldl_setPoison, Mem.byte_putBytes_in h a hk]

theorem Mem.lineBad_putBytes (m : Mem) (a : Nat) (bs : List Byte) (l : Nat) : (m.putBytes a bs).lineBad l = m.lineBad l := by
  induction bs generalizing m a with
  | nil => rfl
  | cons v r ih => exact ih (m.putByte a v) (a + 1)

theorem Mem.lineBad_clean_ne (m : Mem) {l l' : Nat} (h : l' ≠ l) : (m.setPoison l false).lineBad l' = m.lineBad l' := by
  have hfind : Tab.find (m.setPoison l false).poison l' = Tab.find m.poison l' := by
    simp only [Mem.setPoison, Bool.false_eq_true, if_false]
    split
    · exact Tab.find_del_ne _ h
    · rw [Tab.find_put, if_neg h]
  have hundef : (m.setPoison l false).undefAt (l' * 64) = m.undefAt (l' * 64) := rfl
  simp only [Mem.lineBad, hfind, hundef]

/-- A line that is made clean is clean: it is listed as clean, or unlisted where an unlisted line is. -/
theorem Mem.lineBad_clean_self {m : Mem} (h : Memory.wf m = true) (l : Nat) : (m.setPoison l false).lineBad l = false := by
  obtain ⟨-, hp⟩ := (Memory.wf_iff m).1 h
  by_cases hc : m.isClean l 1 = true
  · have hfind : Tab.find (m.setPoison l false).poison l = none := by
      simpa [Mem.setPoison, hc] using Tab.find_del_self (Tab.wf_sorted hp)
    have hundef : (m.setPoison l false).undefAt (l * 64) = none := (Mem.isClean_one hc).2
    simp only [Mem.lineBad, hfind, hundef]
  · have hfind : Tab.find (m.setPoison l false).poison l = some 1 := by simp [Mem.setPoison, hc]
    simp only [Mem.lineBad, hfind]
    rfl

theorem Mem.lineBad_foldl_clean {m : Mem} (h : Memory.wf m = true) (ls : List Nat) (l : Nat) :
    (ls.foldl (fun m k => Mem.setPoison m k false) m).lineBad l = if l ∈ ls then false else m.lineBad l := by
  induction ls generalizing m with
  | nil => rfl
  | cons k r ih =>
    rw [List.foldl_cons, ih (Memory.wf_setPoison h k false)]
    by_cases hk : l = k
    · subst hk
      simp [Mem.lineBad_clean_self h]
    · simp [hk, Mem.lineBad_clean_ne m hk]

theorem mem_fullLines {a n l : Nat} : l ∈ fullLines a n ↔ a ≤ l * 64 ∧ l * 64 + 64 ≤ a + n := by
  simp only [fullLines, rangeFrom, List.mem_filter, List.mem_map, List.mem_range, decide_eq_true_eq, and_iff_right_iff_imp]
  rintro ⟨hlo, hhi⟩
  exact ⟨l - a / 64, by omega, by omega⟩

theorem Mem.lineBad_write {m : Mem} (h : Memory.wf m = true) (a : Nat) (bs : List Byte) (l : Nat) :
    (m.write a bs).lineBad l = if a ≤ l * 64 ∧ l * 64 + 64 ≤ a + bs.length then false else m.lineBad l := by
  rw [Mem.write, Mem.lineBad_foldl_clean (Memory.wf_putBytes h a bs), Mem.lineBad_putBytes]
  simp only [mem_fullLines]

/-- Settles O25: the bytes go in one by one, and then the lines covered in full are made clean one by one. -/
theorem memoryWriteFrame : Obligations.MemoryWriteFrame := fun m a bs h =>
  ⟨fun _ hk => Mem.byte_write_in h a hk, m.byte_write_out a bs,
    fun l hlo hhi => (Mem.lineBad_write h a bs l).trans (if_pos ⟨hlo, hhi⟩),
    fun l hl => (Mem.lineBad_write h a bs l).trans (if_neg hl)⟩

/-! ## The exact 64-bit accumulator (R303) -/

theorem narWord_toInt : narWord.toInt = -(2 ^ 63) := by decide

/-- NAR is the one word whose number lies below the negative limit. -/
theorem toInt_ge_of_ne_nar {a : Word} (h : a ≠ narWord) : -(2 ^ 63 - 1) ≤ a.toInt := by
  have hne : a.toInt ≠ -(2 ^ 63) := fun he => h (BitVec.eq_of_toInt_eq (he.trans narWord_toInt.symm))
  have hle := a.le_toInt
  omega

theorem toInt_ofInt_of_limits {w : Int} (hlo : -(2 ^ 63 - 1) ≤ w) (hhi : w ≤ 2 ^ 63 - 1) : (BitVec.ofInt 64 w).toInt = w :=
  BitVec.toInt_ofInt_eq_self (by decide) (by omega) (by omega)

theorem a64Add_nar {a b : Word} (h : a = narWord ∨ b = narWord) : a64Add a b = (narWord, false) := if_pos h

theorem a64Add_saturated {a b : Word} (ha : a ≠ narWord) (hb : b ≠ narWord)
    (h : a.toInt = 2 ^ 63 - 1 ∨ a.toInt = -(2 ^ 63 - 1)) : a64Add a b = (a, true) := by
  rw [a64Add, if_neg (not_or.2 ⟨ha, hb⟩)]
  exact if_pos h

/-- The sum, brought back between the limits; the flag says that it lay outside. -/
theorem a64Add_unsaturated {a b : Word} (ha : a ≠ narWord) (hb : b ≠ narWord) (hmax : a.toInt ≠ 2 ^ 63 - 1)
    (hmin : a.toInt ≠ -(2 ^ 63 - 1)) :
    a64Add a b = (BitVec.ofInt 64 (max (-(2 ^ 63 - 1)) (min (2 ^ 63 - 1) (a.toInt + b.toInt))),
      decide (a.toInt + b.toInt < -(2 ^ 63 - 1) ∨ 2 ^ 63 - 1 < a.toInt + b.toInt)) := by
  rw [a64Add, if_neg (not_or.2 ⟨ha, hb⟩), if_neg (not_or.2 ⟨hmax, hmin⟩)]
  dsimp only
  split_ifs with hover hunder
  · rw [min_eq_left (by omega), max_eq_right (by omega), decide_eq_true (.inr hover)]
  · rw [min_eq_right (by omega), max_eq_left (by omega), decide_eq_true (.inl hunder)]
  · rw [min_eq_right (by omega), max_eq_right (by omega), decide_eq_false (by omega)]

/-- Settles O28, case by case. -/
theorem a64AddRule : Obligations.A64AddRule := by
  refine fun a b => ⟨fun h => by rw [a64Add_nar h], fun ha hb => ⟨fun h => by rw [a64Add_saturated ha hb h], ?_, ?_⟩⟩
  · intro hmax hmin
    rw [a64Add_unsaturated ha hb hmax hmin]
    exact toInt_ofInt_of_limits (le_max_left _ _) (max_le (by decide) (min_le_left _ _))
  · intro hmax hmin hmax' hmin'
    rw [a64Add_unsaturated ha hb hmax hmin, a64Add_unsaturated hb ha hmax' hmin', Int.add_comm]

/-! ## The interleave of the HBM (R293) -/

theorem State.hbmEnd_eq (s : State) : s.hbmEnd = 163840 * s.granules := by
  unfold State.hbmEnd State.granules
  split <;> rfl

theorem State.hbmMap_global {s : State} (h : s.rf (pMEM 0) 0x100 1 0 = 0) (a : Nat) :
    s.hbmMap a = (a / 256 % 20, a / 256 / 20 % 32, a / 256 / 640) := if_pos h

theorem State.hbmMap_die {s : State} (h : s.rf (pMEM 0) 0x100 1 0 ≠ 0) (a : Nat) :
    s.hbmMap a =
      (5 * (a / 256 / (160 * s.granules)) + a / 256 % (160 * s.granules) % 5, a / 256 % (160 * s.granules) / 5 % 32,
        a / 256 % (160 * s.granules) / 160) := by
  rw [Nat.mod_eq_sub_div_mul (k := 160 * s.granules)]
  exact if_neg h

/-- Every granule of the HBM lies on one of four dies, at a place below the granules that a die holds. -/
theorem State.die_bounds {s : State} {a : Nat} (h : a < s.hbmEnd) :
    a / 256 / (160 * s.granules) < 4 ∧ a / 256 % (160 * s.granules) < 160 * s.granules := by
  rw [s.hbmEnd_eq] at h
  exact ⟨Nat.div_lt_of_lt_mul (by omega), Nat.mod_lt _ (by omega)⟩

theorem State.hbmMap_lt {s : State} {a : Nat} (h : a < s.hbmEnd) :
    (s.hbmMap a).1 < 20 ∧ (s.hbmMap a).2.1 < 32 ∧ (s.hbmMap a).2.2 < s.granules := by
  by_cases hmode : s.rf (pMEM 0) 0x100 1 0 = 0
  · rw [s.hbmEnd_eq] at h
    rw [State.hbmMap_global hmode]
    dsimp only
    omega
  · obtain ⟨hd, hh⟩ := State.die_bounds h
    rw [State.hbmMap_die hmode]
    dsimp only
    omega

/-- Two granules share no place: stack, pseudo-channel and index tell the granule. -/
theorem State.hbmMap_inj {s : State} {a b : Nat} (h : s.hbmMap b = s.hbmMap a) : b / 256 = a / 256 := by
  by_cases hmode : s.rf (pMEM 0) 0x100 1 0 = 0
  · simp only [State.hbmMap_global hmode, Prod.mk.injEq] at h
    omega
  · simp only [State.hbmMap_die hmode, Prod.mk.injEq] at h
    have hdie : b / 256 / (160 * s.granules) = a / 256 / (160 * s.granules) := by omega
    have hplace : b / 256 % (160 * s.granules) = a / 256 % (160 * s.granules) := by omega
    rw [← Nat.div_add_mod (b / 256) (160 * s.granules), hdie, hplace, Nat.div_add_mod]

/-- Under GLOBAL the 640 granules from any address on go round all pseudo-channels of all stacks. -/
theorem State.hbmMap_global_covers {s : State} (hmode : s.rf (pMEM 0) 0x100 1 0 = 0) (a : Nat) {i c : Nat} (hi : i < 20) (hc : c < 32) :
    ∃ e, a ≤ e ∧ e < a + 163840 ∧ (s.hbmMap e).1 = i ∧ (s.hbmMap e).2.1 = c := by
  refine ⟨a + 256 * ((i + 20 * c + 640 - a / 256 % 640) % 640), by omega, by omega, ?_⟩
  rw [State.hbmMap_global hmode, Nat.add_mul_div_left a _ (by decide)]
  dsimp only
  omega

/-- MEM.GEOM shows whether the reserve is held back (R321). -/
theorem State.geom_reserve {s : State} (h : s.pagePowered (pMEM 0) = true) :
    bitAt (s.readReg (pMEM 0) 0x108) 0 = s.boot.cfg.reserve := by
  have hclass : classify (pMEM 0) = some (.mem, 0) := by decide
  have hreg : findReg .mem 0 0x108 = some (ro 0x108 (72 * 2 ^ 32 + 32 * 2 ^ 16)) := by decide
  have hread : s.readReg (pMEM 0) 0x108 = setBit (s.reg (pMEM 0) 0x108) 0 s.boot.cfg.reserve := by
    simp [State.readReg, hclass, hreg, h, ro, State.blockReg, State.memReg]
  rw [hread, bitAt_setBit_self _ _ (by decide)]

/-- Settles O29, mode by mode. -/
theorem hbmMapRule : Obligations.HbmMapRule := by
  intro s a b ha _
  refine ⟨fun hmode => State.hbmMap_global hmode a, fun hmode => ?_, fun hp => by rw [State.geom_reserve hp]; rfl,
    (State.hbmMap_lt ha).1, (State.hbmMap_lt ha).2.1, (State.hbmMap_lt ha).2.2, State.hbmMap_inj,
    fun hmode i c => State.hbmMap_global_covers hmode a⟩
  have hmap := State.hbmMap_die hmode a
  rw [Nat.mod_eq_sub_div_mul (k := 160 * s.granules)] at hmap
  refine ⟨hmap, ?_⟩
  rw [hmap]
  dsimp only
  omega

end Sys2Proof.Machine
end

section
/-! SUPPORT. The proof of the statement about plain writes: what a write changes on its way through the ECC checks, the
write-combining buffer and the fences of a controller (R302, R313, R314, R316). -/

namespace Sys2Proof.Machine

/-! ## What a controller does to its registers and its retrains (R313, R316, R319) -/

@[simp] theorem State.captureErr_unraised (s : State) (page off kind v : Nat) : (s.captureErr page off kind v).unraised = s.unraised := by
  unfold State.captureErr
  split
  · rfl
  · exact State.setReg_unraised ..

@[simp] theorem State.retrainRegs_unraised (s : State) (i : Nat) : (s.retrainRegs i).unraised = s.unraised := by
  simp only [State.retrainRegs, State.setRf_unraised]

@[simp] theorem State.startHold_unraised (s : State) (i : Nat) : (s.startHold i).unraised = s.unraised := by
  simp only [State.startHold]
  split
  · simp
  · rfl

@[simp] theorem State.triggerRetrain_unraised (s : State) (i c : Nat) : (s.triggerRetrain i c).unraised = s.unraised := by
  simp only [State.triggerRetrain]
  split_ifs <;> simp

@[simp] theorem State.autoRetire_unraised (s : State) (i c : Nat) : (s.autoRetire i c).unraised = s.unraised := by
  unfold State.autoRetire
  split
  · simp [State.beginRetire]
  · exact State.raise_unraised ..

@[simp] theorem State.inflightRegs_unraised (s : State) (i reads writes : Nat) :
    (s.inflightRegs i reads writes).unraised = s.unraised := State.setReg_unraised ..

theorem State.stackCorrected_unraised (s : State) (i c idx word : Nat) : (s.stackCorrected i c idx word).unraised = s.unraised := by
  simp only [State.stackCorrected]
  split_ifs <;> simp

/-! ## The check of a word may poison its line, and stores nothing (R313, R314) -/

@[simp] theorem State.inject_mem (s : State) (page pt : Nat) : (s.inject page pt).2.mem = s.mem := by
  unfold State.inject
  dsimp only
  split
  · rfl
  · split
    · exact (State.setRf_mem ..).trans (State.setRf_mem ..)
    · dsimp only
      split
      · exact State.setRf_mem ..
      · rfl

theorem State.stackUncorrectable_byte (s : State) (i c idx word : Nat) (line : Option Nat) :
    (s.stackUncorrectable i c idx word line).mem.byte = s.mem.byte := by
  simp only [State.stackUncorrectable]
  rw [State.mem_of_unraised (State.contained_unraised _), State.mem_of_unraised (State.raise_unraised ..),
    State.mem_of_unraised (State.captureErr_unraised ..), State.addReg_mem]
  cases line with
  | none => rfl
  | some l => exact funext (s.mem.setPoison_byte l true)

theorem State.stackEcc_byte (s : State) (i c idx word : Nat) (line : Option Nat) (e : Ecc) :
    (s.stackEcc i c idx word line e).mem.byte = s.mem.byte := by
  cases e with
  | clean => rfl
  | single => exact congrArg Mem.byte (State.mem_of_unraised (s.stackCorrected_unraised i c idx word))
  | uncorrectable => exact s.stackUncorrectable_byte i c idx word line

theorem State.stackWord_byte (s : State) (a : Nat) (e : Ecc) : (s.stackWord a e).mem.byte = s.mem.byte := by
  simp only [State.stackWord, State.injEcc, State.stackEcc_byte, State.inject_mem]

/-! ## The write-combining buffer holds no bytes of its own (R302) -/

theorem State.sectorLeaves_byte (s : State) (i : Nat) (w : Sector) (e : Ecc) : (s.sectorLeaves i w e).mem.byte = s.mem.byte :=
  foldl_keep (fun s : State => s.mem.byte) _ (fun s _ => s.stackWord_byte _ _) _ _

theorem State.wcbPut_byte (s : State) (ctxs : List Nat) (sec : Nat) (offs : List Nat) :
    (s.wcbPut ctxs sec offs).mem.byte = s.mem.byte := by
  unfold State.wcbPut
  extract_lets i flight full room k old fresh w rest
  have hflight : flight.mem = s.mem := State.mem_of_unraised (s.inflightRegs_unraised i 0 1)
  have hroom : room.mem.byte = s.mem.byte := by
    rw [← hflight]
    dsimp only [room]
    split
    · exact foldl_keep (fun s : State => s.mem.byte) _ (fun s w => s.sectorLeaves_byte i w .clean) _ _
    · rfl
  split_ifs
  · exact hroom
  all_goals exact (congrArg Mem.byte (State.setStack_mem ..)).trans hroom

/-! ## A write to memory behind fences (R316) -/

theorem State.writeLine_byte_out (s : State) (a : Nat) (bs : List Byte) {b : Nat} (h : b < a ∨ a + bs.length ≤ b) :
    (s.writeLine a bs).mem.byte b = s.mem.byte b := by
  simp only [State.writeLine]
  split_ifs
  · rfl
  · exact Mem.byte_write_out _ a bs b h
  · exact Mem.byte_write_out _ a bs b h

theorem State.writeLocal_unfenced {s : State} (h : s.neverFenced = true) (a : Nat) (bs : List Byte) :
    s.writeLocal a bs = { s with mem := s.mem.write a bs } := by
  simp [State.writeLocal, h]

/-- Line by line or at once, a write leaves every byte outside it. -/
theorem State.writeLocal_byte_out (s : State) (a : Nat) (bs : List Byte) {b : Nat} (h : b < a ∨ a + bs.length ≤ b) :
    (s.writeLocal a bs).mem.byte b = s.mem.byte b := by
  unfold State.writeLocal
  split
  · exact Mem.byte_write_out _ a bs b h
  · refine foldl_keep (fun s : State => s.mem.byte b) _ (fun t l => t.writeLine_byte_out _ _ ?_) _ s
    rw [List.length_take, List.length_drop]
    omega

theorem State.hbmWrite_byte (s : State) (ctxs : List Nat) (a : Nat) (bs : List Byte) :
    (s.hbmWrite ctxs a bs).mem.byte = (s.writeLocal a bs).mem.byte := by
  simp only [State.hbmWrite]
  split
  · rfl
  · refine foldl_keep (fun s : State => s.mem.byte) _ (fun t sec => ?_) _ _
    split
    · rfl
    · exact t.wcbPut_byte ..

/-! ## Plain writes -/

theorem State.writeStore_mem (s : State) (core off : Nat) (bs : List Byte) :
    (s.writeStore core off bs).mem = s.mem.write (storeAddr core off) bs := by
  simp only [State.writeStore]
  split <;> rfl

/-- The core and the offset that an address names spell the address. -/
theorem State.storeAddr_of_place {s : State} {a core off : Nat} (h : s.place a = .store core off) : storeAddr core off = a := by
  unfold State.place at h
  split_ifs at h with _ _ hstore
  obtain ⟨rfl, rfl⟩ := Place.store.inj h
  unfold storeAddr storeSize storeBase at *
  omega

/-- To a core store a plain write is a write of memory; elsewhere its bytes pass the fences. -/
theorem State.plainWrite_byte (s : State) (ctxs : List Nat) (a : Nat) (bs : List Byte) :
    (s.plainWrite ctxs a bs).mem.byte = (s.mem.write a bs).byte ∨
      (s.plainWrite ctxs a bs).mem.byte = (s.writeLocal a bs).mem.byte := by
  unfold State.plainWrite
  split
  · exact .inr (s.hbmWrite_byte ctxs a bs)
  · next hp =>
    left
    rw [State.writeStore_mem, State.storeAddr_of_place hp]
  · exact .inr rfl

/-- Settles O26: the checks and the write-combining buffer store no byte, and what the fences let through is a write. -/
theorem plainWriteFrame : Obligations.PlainWriteFrame := by
  intro s ctxs a bs hwf
  constructor
  · intro b hb
    rcases s.plainWrite_byte ctxs a bs with he | he
    · rw [he, Mem.byte_write_out _ a bs b hb]
    · rw [he, s.writeLocal_byte_out a bs hb]
  · intro hn k hk
    rcases s.plainWrite_byte ctxs a bs with he | he
    · rw [he, Mem.byte_write_in hwf a hk]
    · rw [he, State.writeLocal_unfenced hn]
      exact Mem.byte_write_in hwf a hk

end Sys2Proof.Machine
end

section
/-! SUPPORT. The proof of the statement about the read frame: which class reads next in fixed-order mode and in free mode
(R300, R301). -/

namespace Sys2Proof.Machine

/-! ## The places of a frame -/

theorem length_mixClasses (w1 w2 w3 n g1 g2 g3 : Nat) : (mixClasses w1 w2 w3 n g1 g2 g3).length = n := by
  induction n generalizing g1 g2 g3 with
  | zero => rfl
  | succ k ih =>
    unfold mixClasses
    split_ifs <;> simp [ih]

theorem class_of_mem_mixClasses {w1 w2 w3 n g1 g2 g3 c : Nat} (h : c ∈ mixClasses w1 w2 w3 n g1 g2 g3) : 1 ≤ c ∧ c ≤ 3 := by
  induction n generalizing g1 g2 g3 with
  | zero => cases h
  | succ k ih =>
    unfold mixClasses at h
    split_ifs at h <;>
    · rcases List.mem_cons.1 h with rfl | h
      · decide
      · exact ih h

/-- The class of a place of the frame, places going round (R300). -/
def State.classAt (s : State) (i p : Nat) : Nat := (s.frame i).getD (p % 16) 0

theorem State.classAt_mod (s : State) (i p : Nat) : s.classAt i (p % 16) = s.classAt i p := by
  rw [State.classAt, Nat.mod_mod, State.classAt]

theorem State.getD_frame {s : State} {i p : Nat} (h : p < 16) : (s.frame i).getD p 0 = s.classAt i p := by
  rw [State.classAt, Nat.mod_eq_of_lt h]

section Frame

variable (s : State) (i : Nat)

theorem State.cap_lt : s.rf (pMEM i) 0x110 3 0 < 16 := fld_lt _ 3 0

/-- CAP0 places of class 0, and the rest shared by classes 1 to 3. -/
theorem State.frame_split : ∃ l, s.frame i = List.replicate (s.rf (pMEM i) 0x110 3 0) 0 ++ l ∧
    l.length = 16 - s.rf (pMEM i) 0x110 3 0 ∧ ∀ c ∈ l, 1 ≤ c ∧ c ≤ 3 :=
  ⟨_, rfl, length_mixClasses .., fun _ => class_of_mem_mixClasses⟩

theorem State.length_frame : (s.frame i).length = 16 := by
  obtain ⟨l, hl, hlen, -⟩ := s.frame_split i
  have hcap := s.cap_lt i
  rw [hl, List.length_append, List.length_replicate, hlen]
  omega

theorem State.classAt_of_lt_cap {p : Nat} (h : p < s.rf (pMEM i) 0x110 3 0) : s.classAt i p = 0 := by
  obtain ⟨l, hl, -, -⟩ := s.frame_split i
  rw [State.classAt, Nat.mod_eq_of_lt (h.trans (s.cap_lt i)), hl, List.getD_append _ _ _ _ (by rwa [List.length_replicate]),
    List.getD_replicate _ h]

theorem State.classAt_of_cap_le {p : Nat} (h : s.rf (pMEM i) 0x110 3 0 ≤ p) (hp : p < 16) :
    1 ≤ s.classAt i p ∧ s.classAt i p ≤ 3 := by
  obtain ⟨l, hl, hlen, hcls⟩ := s.frame_split i
  rw [State.classAt, Nat.mod_eq_of_lt hp, hl, List.getD_append_right _ _ _ _ (by rwa [List.length_replicate]),
    List.length_replicate, List.getD_eq_getElem _ _ (by omega)]
  exact hcls _ (List.getElem_mem _)

theorem State.classAt_lt (p : Nat) : s.classAt i p < 4 := by
  rw [← s.classAt_mod i p]
  have hp : p % 16 < 16 := Nat.mod_lt _ (by decide)
  rcases Nat.lt_or_ge (p % 16) (s.rf (pMEM i) 0x110 3 0) with h | h
  · rw [s.classAt_of_lt_cap i h]
    decide
  · exact Nat.lt_succ_of_le (s.classAt_of_cap_le i h hp).2

end Frame

/-! ## Which class reads next -/

/-- A search that answers a function of the first element that passes is a search for that element. -/
theorem findSome?_ite_eq_map_find? {α β : Type} (p : α → Bool) (g : α → β) (l : List α) :
    l.findSome? (fun x => if p x then some (g x) else none) = (l.find? p).map g := by
  induction l with
  | nil => rfl
  | cons x r ih =>
    by_cases h : p x = true
    · simp [h]
    · simp [h, ih]

section Pick

variable {s : State} {i : Nat} {has : Nat → Bool}

/-- Fixed-order mode: the distance to the next place that has a read (R301). -/
theorem State.pickClass_fixed (h : s.fixedOrder = true) :
    s.pickClass i has = ((List.range 16).find? (fun d => has (s.classAt i ((s.stack i).slot + d)))).map
      (fun d => (s.classAt i ((s.stack i).slot + d), ((s.stack i).slot + d + 1) % 16)) := by
  have hnext : ∀ d, (((s.stack i).slot + d) % 16 + 1) % 16 = ((s.stack i).slot + d + 1) % 16 := fun d => Nat.mod_add_mod ..
  rw [State.pickClass, if_pos h, ← findSome?_ite_eq_map_find?]
  simp only [hnext]
  rfl

/-- Free mode: the class of the place, or the next one after it that has a read (R300). -/
theorem State.pickClass_free (h : s.fixedOrder = false) (hslot : (s.stack i).slot < 16) :
    s.pickClass i has = (([0, 1, 2, 3].map (fun d => (s.classAt i (s.stack i).slot + d) % 4)).find? has).map
      (fun c => (c, ((s.stack i).slot + 1) % 16)) := by
  simp only [State.pickClass, h, Bool.false_eq_true, if_false, State.getD_frame hslot]

theorem State.pickClass_fixed_some (h : s.fixedOrder = true) {c n : Nat} (hc : s.pickClass i has = some (c, n)) :
    ∃ d, d < 16 ∧ c = s.classAt i ((s.stack i).slot + d) ∧ has c = true ∧ n = ((s.stack i).slot + d + 1) % 16 ∧
      ∀ e, e < d → has (s.classAt i ((s.stack i).slot + e)) = false := by
  rw [State.pickClass_fixed h, Option.map_eq_some_iff] at hc
  obtain ⟨d, hd, he⟩ := hc
  obtain ⟨rfl, rfl⟩ := Prod.mk.inj he
  obtain ⟨hhas, hmem, hbefore⟩ := List.find?_range_eq_some.1 hd
  exact ⟨d, List.mem_range.1 hmem, rfl, hhas, rfl, fun e he => by simpa using hbefore e he⟩

/-- Sixteen places from any one on are all the places. -/
theorem State.pickClass_fixed_none (h : s.fixedOrder = true) (hslot : (s.stack i).slot < 16) :
    s.pickClass i has = none ↔ ∀ p, p < 16 → has (s.classAt i p) = false := by
  rw [State.pickClass_fixed h, Option.map_eq_none_iff, List.find?_eq_none]
  simp only [List.mem_range, Bool.not_eq_true]
  constructor
  · intro hall p hp
    have hd := hall ((p + 16 - (s.stack i).slot) % 16) (Nat.mod_lt _ (by decide))
    rwa [← s.classAt_mod, show ((s.stack i).slot + (p + 16 - (s.stack i).slot) % 16) % 16 = p by omega] at hd
  · intro hall d _
    rw [← s.classAt_mod]
    exact hall _ (Nat.mod_lt _ (by decide))

theorem State.pickClass_free_place (h : s.fixedOrder = false) (hslot : (s.stack i).slot < 16)
    (hhas : has (s.classAt i (s.stack i).slot) = true) :
    s.pickClass i has = some (s.classAt i (s.stack i).slot, ((s.stack i).slot + 1) % 16) := by
  have hc : (s.classAt i (s.stack i).slot + 0) % 4 = s.classAt i (s.stack i).slot := Nat.mod_eq_of_lt (s.classAt_lt i _)
  rw [State.pickClass_free h hslot, List.map_cons, hc, List.find?_cons_of_pos hhas]
  rfl

/-- Four classes from any one on are all the classes. -/
theorem State.pickClass_free_none (h : s.fixedOrder = false) (hslot : (s.stack i).slot < 16) :
    s.pickClass i has = none ↔ ∀ c, c < 4 → has c = false := by
  have hc := s.classAt_lt i (s.stack i).slot
  rw [State.pickClass_free h hslot, Option.map_eq_none_iff, List.find?_eq_none]
  simp only [List.forall_mem_map, Bool.not_eq_true]
  constructor
  · intro hall c hlt
    have hd := hall ((c + 4 - s.classAt i (s.stack i).slot) % 4) (by simp; omega)
    rwa [show (s.classAt i (s.stack i).slot + (c + 4 - s.classAt i (s.stack i).slot) % 4) % 4 = c by omega] at hd
  · exact fun hall d _ => hall _ (Nat.mod_lt _ (by decide))

end Pick

/-- Settles O30: the frame first, then the choice in either mode. -/
theorem readFramePlaces : Obligations.ReadFramePlaces := fun s i _ hslot =>
  ⟨s.length_frame i,
    fun _ => s.classAt_of_lt_cap i, fun _ => s.classAt_of_cap_le i,
    fun h => ⟨fun _ _ => State.pickClass_fixed_some h, State.pickClass_fixed_none h hslot⟩,
    fun h => ⟨State.pickClass_free_place h hslot, State.pickClass_free_none h hslot⟩⟩

end Sys2Proof.Machine
end

section
/-! SUPPORT. The proofs of the statements about the rows of memory: requests, the controllers' own events, retrains and retirement
(R260, R273, R298 to R305, R313, R316 to R320, R472, R476). -/

namespace Sys2Proof.Machine

/-! ## How a request is served (R298, R299, R316) -/

section Request

variable {s : State} (hl : s.live = true)
include hl

/-- Outside a hold and off the lines of a commit window, a request is served now. -/
theorem State.request_served {r : Requester} {c : Instr} {a n : Nat} {cls : Option Nat} (hh : s.inHold a = false)
    (hc : s.closing a n = false) {now : Option State} {t : State} (ht : now = some t) :
    s.request r c a n cls now = .next t.progress.settle := by
  unfold State.request
  rw [if_neg (ne_true_of_eq_false hh), ht]
  exact happens_of (by simp [hl, hc]) t

/-- In a pseudo-channel that is in hold, a request joins the queue of its controller. -/
theorem State.request_queued {r : Requester} {c : Instr} {a n : Nat} {cls : Option Nat} {now : Option State} {t : State}
    (hh : s.inHold a = true) (ht : s.holdCmd r c a cls = some t) : s.request r c a n cls now = .next t.progress.settle := by
  unfold State.request
  rw [if_pos hh, ht]
  exact happens_of hl t

end Request

/-! ## Reads (R298, R300, R313, R314) -/

theorem exec_memoryRead {s : State} {r : Requester} {a : BitVec 48} {n : Nat} {cls : Fin 4} (hit : Bool) (e : Ecc) (hn : 0 < n)
    (hline : a.toNat % 64 + n ≤ 64) (hcls : classOk r cls.val = true) (hs : s.served a.toNat n = true)
    (hf : s.mayFetchAt r a.toNat = true) :
    exec (.memoryRead r a n cls hit e) s =
      s.request r (.memoryRead r a n cls hit e) a.toNat n (some cls.val) (some (s.readNow r a.toNat n cls.val hit e)) := by
  change execMemoryRead r a n cls hit e s = _
  rw [execMemoryRead, wellFormed_of (by simp [hn, hline, hcls, hs]), if_pos hf]

/-! ## Writes (R260, R266, R302, R314) -/

theorem exec_memoryWrite {s : State} {r : Requester} {a : BitVec 48} {d : List Byte} (hr : reqFetches r = false) (hd : d ≠ [])
    (hline : a.toNat % 64 + d.length ≤ 64) (hs : s.served a.toNat d.length = true) :
    exec (.memoryWrite r a d) s = s.request r (.memoryWrite r a d) a.toNat d.length none (s.writeNow r a.toNat d) := by
  change execMemoryWrite r a d s = _
  rw [execMemoryWrite, wellFormed_of (by simp [hr, hd, hline, hs])]

theorem State.writeNow_unit {s : State} {r : Requester} (h : reqWriter r = none) (a : Nat) (d : List Byte) :
    s.writeNow r a d = some ((s.plainWrite (reqCtxs r) a d).servedBy r a) := by
  rw [State.writeNow, h]

theorem State.writeNow_ctx {s t : State} {r : Requester} {n x c a : Nat} {d : List Byte} (h : reqWriter r = some (n, x))
    (hw : s.ctxWrite n x (s.ctx n x).txn a d false = some (c, t)) :
    s.writeNow r a d = some (if c = cOK then t.servedBy r a else t.refuseReq r a 0x21 c) := by
  simp only [State.writeNow, h, hw]

/-! ## Atomics (R303 to R306) -/

theorem exec_memoryAtomic {s : State} {r : Requester} {op : Fin 16} (hr : reqFetches r = false) (hop : op.val ≠ 0) (a : BitVec 48)
    (v : Word) (fetch : Bool) :
    exec (.memoryAtomic r a op v none fetch) s =
      s.request r (.memoryAtomic r a op v none fetch) a.toNat (aopWidth op.val) none
        (some (s.atomicNow r a.toNat op.val v.toNat none fetch)) := by
  change execMemoryAtomic r a op v none fetch s = _
  rw [execMemoryAtomic, wellFormed_of (by simp [hr, hop])]

theorem exec_memoryAtomic_tagged {s : State} {r : Requester} {op : Fin 16} {o : Nat × Nat} (hr : reqFetches r = false)
    (hop : op.val = 3) (ho : o.1 < 64) (hpos : 1 ≤ o.2) (hle : o.2 ≤ 64) (a : BitVec 48) (v : Word) (fetch : Bool) :
    exec (.memoryAtomic r a op v (some o) fetch) s =
      s.request r (.memoryAtomic r a op v (some o) fetch) a.toNat (aopWidth op.val) none
        (some (s.atomicNow r a.toNat op.val v.toNat (some o) fetch)) := by
  change execMemoryAtomic r a op v (some o) fetch s = _
  rw [execMemoryAtomic, wellFormed_of (by simp [hr, hop, ho, hpos, hle])]

/-- Serving a request turns the rotation of its unit, on which no code of R42, R303 or R306 depends. -/
theorem State.aopCode_servedBy (s : State) (r : Requester) (b op a : Nat) (tagged : Bool) :
    (s.servedBy r b).aopCode op a tagged = s.aopCode op a tagged := by
  have hslot : ∀ unit slot, (s.tookSlot unit slot).aopCode op a tagged = s.aopCode op a tagged := by
    intro unit slot
    unfold State.tookSlot
    split <;> rfl
  unfold State.servedBy
  split
  · exact hslot ..
  · split <;> exact hslot ..

section Atomic

variable {s : State} {r : Requester} {op a x : Nat} {fetch : Bool}

/-- An atomic to a line of a region that its writer may not write ends its instruction (R266, R267). -/
theorem State.atomicNow_region {ord : Option (Nat × Nat)} (hc : s.aopCode op a ord.isSome = cOK)
    (hreg : s.reqRegion r a (aopWidth op) ≠ cOK) :
    s.atomicNow r a op x ord fetch = s.refuseReq r a 0x21 (s.reqRegion r a (aopWidth op)) := by
  simp only [State.atomicNow, hc, if_true]
  exact if_pos hreg

theorem State.atomicNow_applied (hc : s.aopCode op a false = cOK) (hreg : s.reqRegion r a (aopWidth op) = cOK) :
    s.atomicNow r a op x none fetch = (s.servedBy r a).applyAop op a x (if fetch then .out a (aopWidth op) else .none) := by
  simp [State.atomicNow, State.atomic, State.aopCode_servedBy, hc, hreg]

/-- An adder that refuses an atomic changes nothing but the rotation of its unit (R42, R303, R306). -/
theorem State.atomicNow_refused (hc : s.aopCode op a false ≠ cOK) :
    s.atomicNow r a op x none fetch = (s.servedBy r a).refuseReq r a 0x40 (s.aopCode op a false) := by
  simp [State.atomicNow, State.atomic, State.aopCode_servedBy, hc]

/-- A tagged FADD goes through the reorder buffer of its adder (R305). -/
theorem State.atomicNow_tagged {o : Nat × Nat} (hop : op = 3) (hc : s.aopCode 3 a true = cOK)
    (hreg : s.reqRegion r a (aopWidth op) = cOK) :
    let u := (s.servedBy r a).arriveTagged a x o.1 o.2 (if fetch then .out a (aopWidth op) else .none)
    s.atomicNow r a op x (some o) fetch = if u.1 = cOK then u.2 else u.2.refuseReq r a 0x40 u.1 := by
  subst hop
  simp [State.atomicNow, State.atomic, State.aopCode_servedBy, hc, hreg]

end Atomic

/-- Settles O27: each row is a request, in hold or not, and what its unit makes of it. -/
theorem memoryRows : Obligations.MemoryRows := by
  refine fun s r a hl => ⟨fun n cls hit e hn hline hcls hs hf => ?_, fun d hr hd hline hs => ?_, fun op v fetch hr hop => ?_⟩
  · rw [exec_memoryRead hit e hn hline hcls hs hf]
    exact ⟨fun hh hc => State.request_served hl hh hc rfl, fun _ => State.request_queued hl⟩
  · rw [exec_memoryWrite hr hd hline hs]
    exact ⟨fun hh hc => ⟨fun hw => State.request_served hl hh hc (State.writeNow_unit hw _ _),
      fun _ _ _ _ hw ht => State.request_served hl hh hc (State.writeNow_ctx hw ht)⟩, fun _ => State.request_queued hl⟩
  · intro w who
    rw [exec_memoryAtomic hr hop]
    refine ⟨fun hh hc => ⟨fun hcode hreg => State.request_served hl hh hc (congrArg some (State.atomicNow_applied hcode hreg)),
      fun hcode hreg => State.request_served hl hh hc (congrArg some (State.atomicNow_region hcode hreg)),
      fun hcode => State.request_served hl hh hc (congrArg some (State.atomicNow_refused hcode)),
      fun o ho hpos hle h3 hcode hreg => ?_⟩, fun _ => State.request_queued hl⟩
    rw [exec_memoryAtomic_tagged hr h3 ho hpos hle]
    exact State.request_served hl hh hc (congrArg some (State.atomicNow_tagged h3 hcode hreg))

end Sys2Proof.Machine
end

section
/-! SUPPORT. The proofs of the statements about the rows of the memory controllers: write combining, scrubbing, drift, retrains,
retirement (R302, R313, R316 to R320, R472, R517). -/

namespace Sys2Proof.Machine

/-! ## What a controller does by itself (R302, R313, R472, R517) -/

theorem exec_wcbSectorLeave {s : State} {i : StackId} {why : LeaveWhy} {w : Sector} (hw : s.leaving i.val why = some w) (e : Ecc) :
    exec (.wcbSectorLeave i why e) s = .next (s.sectorLeaves i.val w e).progress.settle := by
  change execWcbSectorLeave i why e s = _
  rw [execWcbSectorLeave, hw]
  exact State.advance_eq _

/-- A point that no injection is armed at injects nothing (R459). -/
theorem State.inject_of_unarmed {s : State} {page : Nat} (h : bitAt (s.reg page 0x050) 0 = false) (pt : Nat) :
    s.inject page pt = (false, s) := by
  unfold State.inject
  exact if_pos (.inr (.inr (by rw [h]; rfl)))

theorem State.injEcc_of_unarmed {s : State} {page : Nat} (h : bitAt (s.reg page 0x050) 0 = false) (e : Ecc) :
    s.injEcc page e = (e, s) := by
  simp [State.injEcc, State.inject_of_unarmed h]

/-- Where no word has an error and none is injected, the patrol read of a granule changes nothing (R313). -/
theorem State.scrubGranule_clean {s : State} {i : Nat} (h : bitAt (s.reg (pMEM i) 0x050) 0 = false) (c g : Nat) :
    s.scrubGranule i c g [] = s := by
  unfold State.scrubGranule
  refine List.foldl_fixed' (fun w => ?_) _
  simp [State.injEcc_of_unarmed h, State.stackEcc]

section Live

variable {s : State} {i : StackId} (hl : s.live = true)
include hl

theorem exec_scrubRead {c : PchId} (hen : bitAt (s.reg (pMEM i.val) 0x100) 9 = true) (hhold : (s.stack i.val).hold ≠ some c.val)
    (hfence : (s.stack i.val).fenced.contains c.val = false) (hret : bitAt (s.reg (pMEM i.val) 0x158) c.val = false)
    (g : Fin 9437184) (eccs : List (Fin 32 × Ecc)) :
    exec (.scrubRead i c g eccs) s = .next (s.scrubGranule i.val c.val g.val eccs).progress.settle :=
  happens_of (by rw [hl, hen, hfence, hret, bne_iff_ne.2 hhold]; rfl) _

theorem exec_severityPoll (hi : (s.inject (pMEM i.val) 3).1 = false) (v : Fin 4) (c : PchId) :
    let t := (s.inject (pMEM i.val) 3).2
    exec (.severityPoll i v c) s = .next (if v.val = 0 then t
      else (t.setReg (pMEM i.val) 0x138 (BitVec.ofNat 64 (2 ^ 63 + c.val * 256 + v.val))).raise (pMEM i.val) 5).progress.settle := by
  change execSeverityPoll i v c s = _
  simp only [execSeverityPoll, hi, Bool.false_eq_true, if_false]
  exact happens_of hl _

theorem exec_phyDriftEval (hi : (s.inject (pMEM i.val) 4).1 = false) (c : PchId) (alarm : Bool) :
    let t := (s.inject (pMEM i.val) 4).2
    exec (.phyDriftEval i c alarm) s = .next (if alarm then t.triggerRetrain i.val c.val else t).progress.settle := by
  change execPhyDriftEval i c alarm s = _
  simp only [execPhyDriftEval, hi, Bool.false_or]
  exact happens_of hl _

end Live

theorem exec_selfRefreshReturn {s : State} {i : StackId} (hl : s.live = false) (ha : (s.stack i.val).awake = true) :
    exec (.selfRefreshReturn i) s = .next (s.setStack i.val { s.stack i.val with awake := false }).settle :=
  occurs_of (by rw [hl, ha]; rfl) _

/-! ## Retirement and maintenance (R317 to R320) -/

theorem exec_maint {s : State} {src : Src} (h : s.reaches src = true) (hp : s.pageCode (pMEM 0) 0x160 = none) :
    exec (.maint src) s = .next s.maintenancePoint.progress.settle := serveRow_accepted h hp

theorem State.retireWrite_go {s : State} {i c : Nat} (hret : bitAt (s.reg (pMEM i) 0x158) c = false) (hm : s.mayRetire i = true) :
    s.retireWrite i c true = (cOK, s.beginRetire i c) := by
  simp [State.retireWrite, hret, hm]

theorem exec_retire {s : State} {i : StackId} {c : PchId} {src : Src} (h : s.reaches src = true)
    (hp : s.pageCode (pMEM i.val) 0x150 = none) (hret : bitAt (s.reg (pMEM i.val) 0x158) c.val = false)
    (hm : s.mayRetire i.val = true) : exec (.retire i c src) s = .next (s.beginRetire i.val c.val).progress.settle := by
  change s.serveRow (pMEM i.val) 0x150 src (s.retireWrite i.val c.val true) = _
  rw [State.retireWrite_go hret hm, serveRow_accepted h hp]

/-- A copy that found every granule readable ends the retirement (R319). -/
theorem exec_retireDone_readable {s : State} {i : StackId} {c : Nat} (hl : s.live = true) (hr : (s.stack i.val).retiring = some c) :
    let k := s.stack i.val
    let t := s.setStack i.val { k with
      retiring := none
      copied := 0
      pend := delSet k.pend c
      go := delSet k.go c
      hold := if k.hold = some c then none else k.hold }
    let u := (t.setRf (pMEM i.val) 0x158 c c 1).setRf (pMEM i.val) 0x150 1 0 2
    exec (.retireDone i []) s =
      .next (((((u.retrainRegs i.val).raise (pMEM i.val) 4).addSparePch (32 * i.val + c)).serveWaiting i.val).startHold
        i.val).progress.settle := by
  change execRetireDone i [] s = _
  simp only [execRetireDone, hr, List.foldl_nil]
  exact happens_of hl _

/-- Settles O31, row by row. RETIRE_DONE is stated, and settled, for a copy that found every granule readable. -/
theorem controllerRows : Obligations.ControllerRows := by
  refine ⟨fun s i => ⟨fun why e w hw => exec_wcbSectorLeave hw e, fun hl => ⟨fun c g hen hhold hfence hret => ?_,
    fun v c hi => exec_severityPoll hl hi v c, fun c a hi => exec_phyDriftEval hl hi c a⟩, exec_selfRefreshReturn⟩,
    fun s i c src => ⟨exec_maint, exec_retire, exec_retireDone_readable⟩⟩
  exact ⟨exec_scrubRead hl hen hhold hfence hret g, fun h => State.scrubGranule_clean h _ _⟩

/-! ## Retrains (R316, R317) -/

theorem exec_retrainReq {s : State} {i : StackId} {c : PchId} {src : Src} (h : s.reaches src = true)
    (hp : s.pageCode (pMEM i.val) 0x148 = none) (hpend : (s.stack i.val).pend.contains c.val = false)
    (hhold : (s.stack i.val).hold ≠ some c.val) :
    exec (.retrainReq i c src) s = .next (s.triggerRetrain i.val c.val).progress.settle := by
  have hreq : s.retrainReq i.val c.val = (cOK, s.triggerRetrain i.val c.val) :=
    if_neg (by rw [hpend, beq_false_of_ne hhold]; decide)
  change s.serveRow (pMEM i.val) 0x148 src (s.retrainReq i.val c.val) = _
  rw [hreq, serveRow_accepted h hp]

/-- The state in which a hold has run out: it is over, and its length and the event are recorded (R316). -/
def State.holdOut (s : State) (i : Nat) : State :=
  ((s.setStack i { s.stack i with hold := none }).noteHold i 40).raise (pMEM i) 1

/-- A hold that runs out retires its pseudo-channel where one may be retired, and fences it where none may (R316, R320). -/
theorem exec_retrainHoldTimeout {s : State} {i : StackId} {c : Nat} (hhold : (s.stack i.val).hold = some c) :
    let u := (s.holdOut i.val).beginRetire i.val c
    let t := if (s.holdOut i.val).mayRetire i.val then
        u.setStack i.val { u.stack i.val with lost := insSet (u.stack i.val).lost c }
      else (s.holdOut i.val).fencePch i.val c
    exec (.retrainHoldTimeout i) s =
      happens (s.live && s.holdDrained i.val c) (((t.retrainRegs i.val).serveWaiting i.val).startHold i.val) := by
  change execRetrainHoldTimeout i s = _
  simp only [execRetrainHoldTimeout, hhold]
  rfl

section Hold

variable {s : State} {i : StackId} (hl : s.live = true)
include hl

section Drained

variable {c : Nat} (hhold : (s.stack i.val).hold = some c) (hd : s.holdDrained i.val c = true)
include hhold hd

/-- A training that succeeds within the hold ends it and counts (R316 steps 5 and 6). -/
theorem exec_retrainTrained {us : Nat} (hus : us ≤ 40) :
    let k := s.stack i.val
    let t := s.setStack i.val { k with
      hold := none
      ceRetrain := Tab.set k.ceRetrain 0 c 0 }
    exec (.retrainTrained i us) s = .next (((((t.noteHold i.val us).setRf (pMEM i.val) 0x140 47 32
      (t.rf (pMEM i.val) 0x140 47 32 + 1)).retrainRegs i.val).serveWaiting i.val).startHold i.val).progress.settle := by
  change execRetrainTrained i us s = _
  simp only [execRetrainTrained, hhold]
  rw [wellFormed_of (decide_eq_true hus)]
  exact happens_of (by rw [hl, hd]; rfl) _

/-- A pseudo-channel that fails its training, where none may be retired, is fenced (R316). -/
theorem exec_retrainHoldTimeout_fences (hm : (s.holdOut i.val).mayRetire i.val = false) :
    exec (.retrainHoldTimeout i) s =
      .next (((((s.holdOut i.val).fencePch i.val c).retrainRegs i.val).serveWaiting i.val).startHold i.val).progress.settle := by
  rw [exec_retrainHoldTimeout hhold, if_neg (ne_true_of_eq_false hm)]
  exact happens_of (by rw [hl, hd]; rfl) _

/-- Where one may be retired, it is, and all its granules are lost (R316, R320). -/
theorem exec_retrainHoldTimeout_retires (hm : (s.holdOut i.val).mayRetire i.val = true) :
    let u := (s.holdOut i.val).beginRetire i.val c
    let u := u.setStack i.val { u.stack i.val with lost := insSet (u.stack i.val).lost c }
    exec (.retrainHoldTimeout i) s = .next (((u.retrainRegs i.val).serveWaiting i.val).startHold i.val).progress.settle := by
  rw [exec_retrainHoldTimeout hhold, if_pos hm]
  exact happens_of (by rw [hl, hd]; rfl) _

end Drained

/-- A retrain deferred to the end of a fixed-order run is forced (R317). -/
theorem exec_retrainForced {c : PchId} (hpend : (s.stack i.val).pend.contains c.val = true)
    (hgo : (s.stack i.val).go.contains c.val = false) :
    exec (.retrainForced i c) s =
      .next (((((s.setStack i.val { s.stack i.val with go := insSet (s.stack i.val).go c.val }).raise (pMEM i.val) 3).voidSeq
        34).startHold i.val)).progress.settle :=
  happens_of (by rw [hl, hpend, hgo]; rfl) _

/-- A retry that trains unfences its pseudo-channel, whose lines stay lost until they are written (R316). -/
theorem exec_fencedRetry_trained {c : PchId} (hfence : (s.stack i.val).fenced.contains c.val = true)
    (hfree : (s.fixedRun && s.job == 2) = false) :
    exec (.fencedRetry i c true) s = .next ((s.setStack i.val { s.stack i.val with
      go := delSet (s.stack i.val).go c.val
      fenced := delSet (s.stack i.val).fenced c.val
      stale := insSet (s.stack i.val).stale c.val
      ceRetrain := Tab.set (s.stack i.val).ceRetrain 0 c.val 0 }).retrainRegs i.val).progress.settle :=
  happens_of (by rw [hl, hfence, hfree]; rfl) _

end Hold

/-- Settles O32, row by row. -/
theorem retrainRows : Obligations.RetrainRows := by
  intro s i c k
  refine ⟨fun src => exec_retrainReq, fun hl => ⟨fun us hhold hus hd => exec_retrainTrained hl hhold hd hus,
    fun hhold hd => exec_retrainHoldTimeout_fences hl hhold hd, fun hhold hd => exec_retrainHoldTimeout_retires hl hhold hd,
    exec_retrainForced hl, fun hfence hfree => ⟨_, exec_fencedRetry_trained hl hfence hfree, rfl⟩⟩⟩

end Sys2Proof.Machine
end

section
/-! SUPPORT. The proofs of the statements about the torus links: training, the link layer, credits, the service of packets at their
destination, and what the rows of links and clocks leave unchanged (R327 to R345, R373). -/

namespace Sys2Proof.Machine

/-! ## Credits (R340) -/

theorem creditBit_lt (vc : Nat) : creditBit vc + 8 < 64 := by
  unfold creditBit
  split_ifs <;> decide

/-- The credit counts of two virtual channels are two fields of TOR.CREDITS. -/
theorem creditBit_apart {v w : VcId} (h : w ≠ v) :
    creditBit w.val + 8 < creditBit v.val ∨ creditBit v.val + 8 < creditBit w.val := by
  revert v w
  decide

section Credits

variable {s : State} (h : Tab.sortedFrom 0 s.regs = true) (p : Nat)
include h

theorem State.credits_setCredits_self (vc : Nat) {n : Nat} (hn : n < 512) : (s.setCredits p vc n).credits p vc = n := by
  unfold State.credits State.setCredits State.rf
  rw [State.reg_setRf_self h, fld_setFld_self _ _ (by omega) (creditBit_lt vc)]
  exact Nat.mod_eq_of_lt (by rwa [Nat.add_sub_cancel_left])

theorem State.credits_setCredits_ne {v w : VcId} (hne : w ≠ v) (n : Nat) :
    (s.setCredits p v.val n).credits p w.val = s.credits p w.val := by
  unfold State.credits State.setCredits State.rf
  rw [State.reg_setRf_self h]
  rcases creditBit_apart hne with hlt | hgt
  · exact fld_setFld_below _ _ (by omega) (creditBit_lt _) (by omega) hlt
  · exact fld_setFld_above _ _ (by omega) (creditBit_lt _) hgt

end Credits

/-- A credit count is all of the registers that setting it writes. -/
theorem State.reg_setCredits_ne (s : State) {p q o : Nat} (vc n : Nat) (ho : o < 4096) (hne : (q, o) ≠ (pTOR p, 0x140)) :
    (s.setCredits p vc n).reg q o = s.reg q o := by
  refine State.reg_setRf_ne s _ _ _ ?_
  rw [Ne, regKey_inj ho (by decide), ← Prod.mk.injEq]
  exact hne

/-! ## Only a packet that can leave is served by a slot (R340 to R342) -/

theorem State.canLeave_of_slotPacket {s : State} {p i : Nat} {o : OutPkt} (h : s.slotPacket p i = some o) :
    s.canLeave p (slotVc i) o = true := by
  unfold State.slotPacket at h
  dsimp only at h
  split at h
  · exact (Option.filter_eq_some_iff.1 h).2
  · exact List.find?_some h

theorem State.slotPacket_of_nextSlot {s : State} {p i : Nat} {o : OutPkt} (h : s.nextSlot p = some (i, o)) :
    s.slotPacket p i = some o := by
  obtain ⟨d, -, hd⟩ := List.exists_of_findSome?_eq_some h
  obtain ⟨o', ho, he⟩ := Option.map_eq_some_iff.1 hd
  cases he
  exact ho

/-- A packet that can leave has the credits for all its units. -/
theorem State.credits_of_canLeave {s : State} {p vc : Nat} {o : OutPkt} (h : s.canLeave p vc o = true) :
    bufUnits o.pkt ≤ s.credits p vc := by
  simp only [State.canLeave, Bool.and_eq_true, decide_eq_true_eq] at h
  obtain ⟨⟨⟨-, hcredits⟩, -⟩, -⟩ := h
  exact hcredits

/-! ## CREDIT_RETURN -/

section CreditReturn

variable {s : State} {p : PortId} {vc : VcId} {n : Nat}

theorem exec_creditReturn (hu : s.linkState p.val = 2) (hn : s.credits p.val vc.val + n ≤ 288) :
    exec (.creditReturn p vc n) s = .next (s.setCredits p.val vc.val (s.credits p.val vc.val + n)).settle :=
  occurs_of (by rw [hu, decide_eq_true hn]; rfl) _

/-- More credits than the downstream buffer has units are no event (log entry 10). -/
theorem exec_creditReturn_beyond (hn : 288 < s.credits p.val vc.val + n) : exec (.creditReturn p vc n) s = .fault .notEnabled := by
  refine if_neg ?_
  simp [Nat.not_le.2 hn]

end CreditReturn

/-- Settles O47: the counts of a port are fields apart, and a slot serves only a packet that its credits cover. That more than 288
units are answered with the fault notEnabled is entry 10 of the log. -/
theorem creditsStayWithinTheBuffer : Obligations.CreditsStayWithinTheBuffer := by
  intro s p vc n hs hu
  obtain ⟨hregs, -, -⟩ := hs
  have hsorted : Tab.sortedFrom 0 s.regs = true := Tab.wf_sorted hregs
  refine ⟨fun hn => ⟨_, exec_creditReturn hu hn, ?_, fun w hw => ?_, rfl⟩, exec_creditReturn_beyond, fun i o h => ?_⟩
  · exact State.credits_setCredits_self hsorted _ _ (by omega)
  · exact State.credits_setCredits_ne hsorted _ hw _
  · exact State.credits_of_canLeave (State.canLeave_of_slotPacket (State.slotPacket_of_nextSlot h))

/-! ## What the rows of links and clocks leave unchanged -/

/-- The parts of the state that no link, crossing, rate, standby supply or Keyhole session has a share in. -/
def State.units (s : State) : Mem × Tab Core × Tab Arr × SyncSt × TxnSt × CollSt × StepSt × HcqSt × Sec × ThmSt :=
  (s.mem, s.cores, s.arrs, s.sync, s.txn, s.coll, s.step, s.hcq, s.sec, s.thm)

/-- Units that are those of a state in canonical form stand when their state is put in canonical form. -/
theorem State.settle_units {s u : State} (hs : Safety.Inv s) (h : u.units = s.units) : u.settle.units = s.units := by
  obtain ⟨-, hmem, htab⟩ := hs
  have he : u.settle.units = s.settle.units := by
    simp only [State.units, Prod.mk.injEq] at h ⊢
    obtain ⟨hm, hc, ha, hy, hx, hl, hst, hh, hsec, hthm⟩ := h
    simp only [State.settle, hm, hc, ha, hy, hx, hl, hst, hh, hsec, hthm, and_self]
  rw [he]
  simp only [State.units, State.settle_mem hmem, State.settle_cores htab, State.settle_arrs htab, State.settle_sync htab,
    State.settle_hcq htab, State.settle_txn, State.settle_coll, State.settle_step, State.settle_sec, State.settle_thm]

/-- The rows that only move a link, a crossing, a rate, the standby supply or a Keyhole session. -/
def LinkOrClock (c : Instr) : Prop :=
  (∃ p vc n, c = .creditReturn p vc n) ∨ (∃ p q, c = .linkAck p q) ∨ (∃ d x, c = .crossingFilled d x) ∨
    (∃ d x, c = .datapathRelease d x) ∨ (∃ p, c = .startTick p) ∨ (∃ p q, c = .rateRecover p q) ∨ c = .vstbyGood ∨
    c = .khSessionTimeout

/-- What such a row may make of the state: it keeps the units, and its registers are those there were, or it has set a credit
count. -/
def State.MovesLinks (s t : State) (c : Instr) : Prop :=
  ∃ u : State, t = u.settle ∧ u.units = s.units ∧
    (u.regs = s.regs ∨ ∃ p vc n m, c = .creditReturn p vc n ∧ u = s.setCredits p.val vc.val m)

theorem State.MovesLinks.of_occurs {s t u : State} {c : Instr} {b : Bool} (h : occurs b u = .next t) (hunits : u.units = s.units)
    (hregs : u.regs = s.regs) : s.MovesLinks t c :=
  ⟨u, (occurs_next.1 h).2, hunits, .inl hregs⟩

theorem LinkOrClock.movesLinks {s t : State} {c : Instr} (hc : LinkOrClock c) (h : exec c s = .next t) : s.MovesLinks t c := by
  rcases hc with ⟨p, vc, n, rfl⟩ | ⟨p, q, rfl⟩ | ⟨d, x, rfl⟩ | ⟨d, x, rfl⟩ | ⟨_ | p, rfl⟩ | ⟨p, q, rfl⟩ | rfl | rfl
  · exact ⟨_, (occurs_next.1 h).2, rfl, .inr ⟨p, vc, n, _, rfl, rfl⟩⟩
  · exact .of_occurs h rfl rfl
  · exact .of_occurs h rfl rfl
  · exact .of_occurs h rfl rfl
  · exact .of_occurs h rfl rfl
  · exact .of_occurs h rfl rfl
  · exact .of_occurs h rfl rfl
  · exact .of_occurs h rfl rfl
  · exact .of_occurs h rfl rfl

/-- Settles O48: the canonical form changes nothing of a state that is in it. -/
theorem linkAndClockRowsFrame : Obligations.LinkAndClockRowsFrame := by
  intro s t c hs hc h
  obtain ⟨u, rfl, hunits, hregs⟩ := LinkOrClock.movesLinks hc h
  have hkept : u.settle.units = s.units := State.settle_units hs hunits
  simp only [State.units, Prod.mk.injEq] at hkept
  obtain ⟨hm, hco, ha, hsy, htx, hcl, hst, hh, hse, hth⟩ := hkept
  refine ⟨hm, hco, ha, hsy, htx, hcl, hst, hh, hse, hth, fun q o ho hne => ?_⟩
  rw [State.settle_reg]
  rcases hregs with he | ⟨p, vc, n, m, rfl, rfl⟩
  · unfold State.reg
    rw [he]
  · exact State.reg_setCredits_ne s _ _ ho (hne p vc n rfl)

/-! ## Training (R327 to R330, R345) -/

section Training

variable {s : State} {p : PortId}

/-- A training signal of the partner on a port that has ended its training makes this end reset the link too (log entry 33). -/
theorem exec_linkSignalDetect_relinks (hl : s.live = true) (hlo : 2 ≤ s.linkState p.val) (hhi : s.linkState p.val ≤ 5) (l : LaneId) :
    exec (.linkSignalDetect p l) s = .next ((s.relinkPort p.val).openWindow p.val).settle :=
  (if_pos ⟨hlo, hhi⟩).trans (occurs_of hl _)

theorem exec_torRetrainReq {src : Src} (h : s.reaches src = true) (hp : s.pageCode (pTOR p.val) 0x150 = none)
    (htrain : s.linkState p.val ≠ 1) (hprofile : s.linkState p.val ≠ 6) :
    exec (.torRetrainReq p src) s = .next (s.relinkPort p.val).progress.settle := by
  change s.serveRow (pTOR p.val) 0x150 src (s.torRetrain p.val) = _
  rw [State.torRetrain, if_neg htrain, if_neg hprofile, serveRow_accepted h hp]

section InTraining

variable (ht : s.linkState p.val = 1)
include ht

/-- The first signal opens the lock window. -/
theorem exec_linkSignalDetect_opens (hstep : (s.port p.val).step = 1) (hw : (s.port p.val).window = false) (l : LaneId) :
    exec (.linkSignalDetect p l) s = .next (s.openWindow p.val).settle :=
  (if_neg (by omega)).trans (occurs_of (by rw [ht, hstep, hw]; rfl) _)

theorem exec_laneLock {l : LaneId} (hlock : (s.port p.val).mayLock l.val = true) (hstays : (s.lockLane p.val l.val).linkState p.val = 1) :
    exec (.laneLock p l) s = .next (s.lockLane p.val l.val).settle := by
  change execLaneLock p l s = _
  rw [execLaneLock, occurs_of (by rw [ht, hlock]; rfl)]
  dsimp only
  rw [if_pos hstays]

/-- Two lanes or more that have not locked in the window are more than the spare can replace. -/
theorem exec_laneLockTimeout_givesUp (hstep : (s.port p.val).step = 2) (hbad : 2 ≤ (s.port p.val).unlocked.length) :
    exec (.laneLockTimeout p) s =
      .next ((s.setReg (pTOR p.val) 0x118 (BitVec.ofNat 64 (laneBits (s.port p.val).unlocked))).giveUp p.val 3).settle := by
  change execLaneLockTimeout p s = _
  simp only [execLaneLockTimeout, hstep, if_true]
  rw [occurs_of (by rw [ht]; rfl), if_neg (by omega), if_neg (by omega)]

theorem exec_laneLockTimeout_exchanges (hstep : (s.port p.val).step = 2) (hbad : (s.port p.val).unlocked.length = 1) :
    exec (.laneLockTimeout p) s = .next (s.exchange p.val).settle := by
  change execLaneLockTimeout p s = _
  simp only [execLaneLockTimeout, hstep, hbad]
  exact occurs_of (by rw [ht]; rfl) _

theorem exec_trainingRecord {r : TrainRec} (hstep : (s.port p.val).step = 3) (hstays : (s.takeRecord p.val r).linkState p.val = 1) :
    exec (.trainingRecord p r) s = .next (s.takeRecord p.val r).settle := by
  change execTrainingRecord p r s = _
  simp only [execTrainingRecord, hstays, if_true]
  exact occurs_of (by rw [ht, hstep]; rfl) _

theorem exec_linkUp (hstep : (s.port p.val).step = 7) (ha : s.boot.aligned.contains (portXing p.val) = true) :
    exec (.linkUp p) s = .next (s.portUp p.val).settle :=
  occurs_of (by rw [ht, hstep, ha]; rfl) _

end InTraining

end Training

/-! ## The link layer of a port that is UP (R331, R333, R340 to R345) -/

section Up

variable {s : State} {p : PortId} (hu : s.linkState p.val = 2)
include hu

/-- A packet is judged where its input buffer has room for it, or where it fails the CRC and needs none. -/
theorem exec_linkPacketReceive {ok : Bool} {bad : Nat} {pk : Packet} (hlen : pk.payload.length ≤ 8192) (hbad : bad = 0 ∨ ok = false)
    (hroom : ok = false ∨ s.inUnits p.val (laneOf pk) + bufUnits pk ≤ 288) (q : Fin 4096) (corr : Nat) :
    exec (.linkPacketReceive p q ok corr bad pk) s = .next (s.receivePacket p.val q.val ok corr bad pk).settle := by
  change execLinkPacketReceive p q ok corr bad pk s = _
  rw [execLinkPacketReceive, wellFormed_of (by rcases hbad with rfl | rfl <;> simp [hlen])]
  refine occurs_of ?_ _
  rcases hroom with rfl | hroom
  · simp [hu]
  · simp [hu, hroom]

theorem exec_linkAck (q : Fin 4096) : exec (.linkAck p q) s =
    .next (s.setPort p.val ((s.port p.val).ackTo (s.nextSeq p.val) ((q.val + 1) % 4096))).settle :=
  occurs_of (by rw [hu]; rfl) _

theorem exec_linkNak (hl : s.live = true) (q : Fin 4096) : exec (.linkNak p q) s =
    .next ((s.setPort p.val ((s.port p.val).ackTo (s.nextSeq p.val) q.val)).resend p.val).settle :=
  occurs_of (by rw [State.linkSends, hu, hl]; rfl) _

theorem exec_replayTimeout (hl : s.live = true) (hr : (s.port p.val).replay ≠ []) :
    exec (.replayTimeout p) s = .next (s.resend p.val).settle :=
  occurs_of (by rw [hl, hu, bne_iff_ne.2 hr]; rfl) _

theorem exec_packetDepart {i : Nat} {o : OutPkt} {vc : VcId} (hn : s.nextSlot p.val = some (i, o)) (hvc : slotVc i = vc.val) :
    exec (.packetDepart p vc) s = .next (s.departPacket p.val i o).settle := by
  change execPacketDepart p vc s = _
  rw [execPacketDepart, hn]
  exact occurs_of (by rw [hu, hvc]; simp) _

end Up

/-- A live router lets every packet go. -/
theorem State.goes_of_live {s : State} (hl : s.live = true) (p : Packet) : s.goes p = true := by
  rw [State.goes, hl, Bool.true_or]

theorem exec_packetForward {s t : State} {n : Fin 13} {d : DieId} {vc : VcId} {pk : Packet} (hdie : n.val = 0 ∨ (n.val - 1) / 3 = d.val)
    (hin : s.takeInput n.val d.val vc.val = some (pk, t)) (hl : s.live = true) :
    exec (.packetForward n d vc) s = .next (t.routePacket n.val d.val vc.val
      (if n.val = 0 then none else some (s.rf (pTOR (n.val - 1)) 0x108 11 9)) pk).progress.settle := by
  change execPacketForward n d vc s = _
  rw [execPacketForward, wellFormed_of (decide_eq_true hdie), hin]
  exact happens_of (State.goes_of_live hl pk) _

/-- Settles O45, row by row. That a training signal on a port which has ended its training resets the link is entry 33 of the log. -/
theorem linkRows : Obligations.LinkRows :=
  ⟨fun _ _ l => ⟨fun ht => ⟨fun hstep hw => exec_linkSignalDetect_opens ht hstep hw l, exec_laneLock ht,
      exec_laneLockTimeout_givesUp ht, exec_laneLockTimeout_exchanges ht, fun _ => exec_trainingRecord ht, exec_linkUp ht⟩,
      fun hl hlo hhi => exec_linkSignalDetect_relinks hl hlo hhi l, fun _ => exec_torRetrainReq⟩,
    fun _ _ hu => ⟨fun _ corr hlen hroom q => exec_linkPacketReceive hu hlen (.inl rfl) (.inr hroom) q corr,
      fun _ corr _ q hlen => exec_linkPacketReceive hu hlen (.inr rfl) (.inl rfl) q corr, exec_linkAck hu,
      fun q hl => exec_linkNak hu hl q, exec_replayTimeout hu, fun _ _ _ => exec_packetDepart hu,
      fun _ _ _ _ _ => exec_packetForward⟩⟩

/-! ## The service of packets at their destination (R299, R316, R333, R339, R373) -/

section Service

variable {s : State} {p : Packet}

theorem exec_mgmt (hp : pktOk 0x18 1 128 p = true) : exec (.mgmt p) s = .next ((s.takeArrival p).emit (.mgmt p)).settle :=
  (wellFormed_of hp _).trans (occurs_of rfl _)

section Live

variable (hl : s.live = true)
include hl

/-- Outside a hold, a request packet that need not wait is served now. -/
theorem State.servePacket_served {c : Instr} {a n : Nat} {cls : Option Nat} {now : State → Option State} {t : State}
    (hh : (s.takeArrival p).heldIn a n = none) (ht : now (s.takeArrival p) = some t) :
    s.servePacket c p a n cls now = .next (t.servedBy .torus a).progress.settle := by
  simp only [State.servePacket, hh, ht, Option.map_some]
  exact happens_of hl _

/-- In a hold, a request packet joins the queue of the controller of its first line there. -/
theorem State.servePacket_held {c : Instr} {a n h : Nat} {cls : Option Nat} {now : State → Option State} {t : State}
    (hh : (s.takeArrival p).heldIn a n = some h)
    (ht : (s.takeArrival p).holdReq { what := .cmd c, line := h / 64, cls := cls, die := s.homeDie a } = some t) :
    s.servePacket c p a n cls now = .next t.progress.settle := by
  simp only [State.servePacket, hh, ht]
  exact happens_of hl _

section Wr

variable (hp : pktOk 0x01 1 128 p = true)
include hp

theorem exec_wr {t : State} (hh : (s.takeArrival p).heldIn (pktAddr p) p.payload.length = none)
    (ht : (s.takeArrival p).serveWr p = some t) : exec (.wr p) s = .next (t.servedBy .torus (pktAddr p)).progress.settle :=
  (wellFormed_of hp _).trans (State.servePacket_served hl hh ht)

theorem exec_wr_held {h : Nat} {t : State} (hh : (s.takeArrival p).heldIn (pktAddr p) p.payload.length = some h)
    (ht : (s.takeArrival p).holdReq { what := .cmd (.wr p), line := h / 64, cls := none, die := s.homeDie (pktAddr p) } = some t) :
    exec (.wr p) s = .next t.progress.settle :=
  (wellFormed_of hp _).trans (State.servePacket_held hl hh ht)

end Wr

theorem exec_rd {t : State} (hp : pktOk 0x02 0 0 p = true)
    (hh : (s.takeArrival p).heldIn (pktAddr p / 64 * 64) (64 * (fld p.w0 14 8 + 1)) = none)
    (ht : (s.takeArrival p).serveRd p = some t) :
    exec (.rd p) s = .next (t.servedBy .torus (pktAddr p / 64 * 64)).progress.settle :=
  (wellFormed_of hp _).trans (State.servePacket_served hl hh ht)

theorem exec_aop (hp : pktOk 0x03 1 1 p = true) (hh : (s.takeArrival p).heldIn (pktAddr p) (aopWidth (fld p.w2 63 60)) = none)
    (hc : (s.takeArrival p).closing (pktAddr p) (aopWidth (fld p.w2 63 60)) = false) :
    exec (.aop p) s = .next (((s.takeArrival p).serveAop p).servedBy .torus (pktAddr p)).progress.settle :=
  (wellFormed_of hp _).trans (State.servePacket_served hl hh (if_neg (ne_true_of_eq_false hc)))

theorem exec_ack (hp : pktOk 0x08 0 0 p = true) : exec (.ack p) s = .next ((s.takeArrival p).takeAck p).progress.settle :=
  (wellFormed_of hp _).trans (happens_of hl _)

theorem exec_rdata {t : State} (hp : pktOk 0x09 1 128 p = true) (ht : (s.takeArrival p).takeRdata p = some t) :
    exec (.rdata p) s = .next t.progress.settle := by
  change execRdata p s = _
  rw [execRdata, wellFormed_of hp, ht]
  exact happens_of hl _

theorem exec_aresp {t : State} (hp : pktOk 0x0A 1 1 p = true) (ht : (s.takeArrival p).takeAresp p = some t) :
    exec (.aresp p) s = .next t.progress.settle := by
  change execAresp p s = _
  rw [execAresp, wellFormed_of hp, ht]
  exact happens_of hl _

theorem exec_nak (hp : pktOk 0x0B 0 0 p = true) : exec (.nak p) s = .next ((s.takeArrival p).takeNak p).progress.settle :=
  (wellFormed_of hp _).trans (happens_of hl _)

end Live

end Service

/-- Settles O49, row by row. The wait in a hold is stated, and settled, for WR only. -/
theorem packetServiceRows : Obligations.PacketServiceRows :=
  fun _ _ => ⟨exec_mgmt, fun hl => ⟨fun _ hp => exec_wr hl hp, fun _ => exec_rd hl, exec_aop hl, fun _ _ hp => exec_wr_held hl hp,
    exec_ack hl, fun _ => exec_rdata hl, fun _ => exec_aresp hl, exec_nak hl⟩⟩

end Sys2Proof.Machine
end

section
/-! SUPPORT. The proofs of the statements about collectives and pace: the rows of the collective engines (R351 to R360), and the
package median (R363). -/

namespace Sys2Proof.Machine

/-! ## The package median (R363) -/

theorem insOrd_eq_orderedInsert (l : List Nat) (n : Nat) : insOrd l n = l.orderedInsert (· ≤ ·) n := by
  induction l with
  | nil => rfl
  | cons x t ih => rw [insOrd, ih, List.orderedInsert_cons]

/-- Putting the values into a rising list one by one is an insertion sort, which takes them from the last. -/
theorem foldl_insOrd (l : List Nat) : l.foldl insOrd [] = l.reverse.insertionSort (· ≤ ·) := by
  rw [List.foldl_eq_foldr_reverse]
  simp only [insOrd_eq_orderedInsert]
  rfl

theorem paceMedian_eq_getElem {l : List Nat} (h : 15 < (l.reverse.insertionSort (· ≤ ·)).length) :
    paceMedian l = (l.reverse.insertionSort (· ≤ ·))[15] := by
  rw [paceMedian, foldl_insOrd, List.getD_eq_getElem _ _ h]

/-- A part of a list all of whose members count bounds the count from below. -/
theorem length_le_countP_of_sublist {l m : List Nat} {q : Nat → Bool} (h : m.Sublist l) (hq : ∀ v ∈ m, q v = true) :
    m.length ≤ l.countP q :=
  (List.countP_eq_length.2 hq).ge.trans h.countP_le

/-- In a rising list the first `k + 1` values do not exceed the value at index `k`. -/
theorem succ_le_countP_le_getElem {l : List Nat} (hl : l.SortedLE) {k : Nat} (hk : k < l.length) :
    k + 1 ≤ l.countP (fun v => decide (v ≤ l[k])) := by
  have hfirst : (l.take (k + 1)).length ≤ l.countP (fun v => decide (v ≤ l[k])) := by
    refine length_le_countP_of_sublist (List.take_sublist _ _) fun v hv => decide_eq_true ?_
    obtain ⟨i, hi, rfl⟩ := List.mem_take_iff_getElem.1 hv
    exact hl.getElem_le_getElem_of_le (by omega)
  rwa [List.length_take_of_le hk] at hfirst

/-- In a rising list no value from index `k` on falls below the value there. -/
theorem length_sub_le_countP_getElem_le {l : List Nat} (hl : l.SortedLE) {k : Nat} (hk : k < l.length) :
    l.length - k ≤ l.countP (fun v => decide (l[k] ≤ v)) := by
  rw [← List.length_drop]
  refine length_le_countP_of_sublist (List.drop_sublist _ _) fun v hv => decide_eq_true ?_
  obtain ⟨i, hi, rfl⟩ := List.mem_drop_iff_getElem.1 hv
  exact hl.getElem_le_getElem_of_le (by omega)

/-- Settles O38: the median is the value at index 15 of the sorted list, and sorting keeps every count. -/
theorem paceMedianIsOrderStatistic : Obligations.PaceMedianIsOrderStatistic := by
  intro l hlen
  have hperm : (l.reverse.insertionSort (· ≤ ·)).Perm l := (List.perm_insertionSort _ _).trans l.reverse_perm
  have hsorted : (l.reverse.insertionSort (· ≤ ·)).SortedLE := List.sortedLE_insertionSort
  have hcard : (l.reverse.insertionSort (· ≤ ·)).length = 32 := hperm.length_eq.trans hlen
  have h15 : 15 < (l.reverse.insertionSort (· ≤ ·)).length := by omega
  rw [paceMedian_eq_getElem h15, ← List.countP_eq_length_filter, ← List.countP_eq_length_filter, ← hperm.countP_eq,
    ← hperm.countP_eq]
  have hbelow := succ_le_countP_le_getElem hsorted h15
  have habove := length_sub_le_countP_getElem_le hsorted h15
  rw [hcard] at habove
  exact ⟨hperm.mem_iff.1 (List.getElem_mem h15), hbelow, habove⟩

/-! ## The rows of the collective engines (R351, R354, R359) -/

section Live

variable {s : State} {d : DieId} {ax : AxisId} (hl : s.live = true)
include hl

/-- COLLECTIVE_START of the oldest collective of an idle axis, which no injection fails (R351). -/
theorem exec_collectiveStart {e : Nat × CollJob} (he : s.coll.queue.find? (fun e => e.1 == d.val && e.2.axis == ax.val) = some e)
    (hidle : s.collRun d.val ax.val = none) :
    let r : CollRun := { job := e.2, tag := s.newTag.1 }
    let u := s.newTag.2
    let u : State := { u with coll := { u.coll with
      queue := u.coll.queue.erase e
      run := u.coll.run ++ [(3 * d.val + ax.val, r)]
      dead := u.coll.dead.filter (fun k => k != (d.val, ax.val, e.2.id)) } }
    ((u.collRegs d.val).inject (pCOL d.val) 1).1 = false →
    exec (.collectiveStart d ax) s = .next (((u.collRegs d.val).inject (pCOL d.val) 1).2.collPump).progress.settle := by
  intro _ _ _ hinj
  change execCollectiveStart d ax s = _
  rw [execCollectiveStart, he, hidle]
  dsimp only
  rw [if_neg (ne_true_of_eq_false hinj)]
  exact happens_of hl _

/-- COLLECTIVE_COMPLETE of a collective that no context asked for (R359). -/
theorem exec_collectiveComplete_headerOnly {r : CollRun} (hr : s.collPump.collRun d.val ax.val = some r) (hby : r.job.by_ = none)
    (hlive : s.collPump.live = true) (hdone : s.collPump.collDone r = true) :
    exec (.collectiveComplete d ax) s =
      .next (((s.collPump.collGone d.val ax.val).addReg (pCOL d.val) 0x128 1).collPump).progress.settle := by
  change execCollectiveComplete d ax s = _
  simp only [execCollectiveComplete, if_pos hl, hr, hby]
  exact happens_of (by rw [hlive, hdone]; rfl) _

/-- COLLECTIVE_COMPLETE of a collective whose instruction is still in flight ends the instruction (R359). -/
theorem exec_collectiveComplete_instruction {r : CollRun} {n x : Nat} {j : Ins}
    (hr : s.collPump.collRun d.val ax.val = some r) (hby : r.job.by_ = some (n, x, j)) (hlive : s.collPump.live = true)
    (hdone : s.collPump.collDone r = true) :
    let t := (s.collPump.collGone d.val ax.val).addReg (pCOL d.val) 0x128 1
    (t.ctx n x).fly.any (fun i => i.seq == j.seq && i.epoch == j.epoch) = true →
    exec (.collectiveComplete d ax) s = .next (((t.finishIns n x j).signalTally n x j).collPump).progress.settle := by
  intro t hfly
  change execCollectiveComplete d ax s = _
  simp only [execCollectiveComplete, if_pos hl, hr, hby]
  rw [if_pos hfly]
  exact happens_of (by rw [hlive, hdone]; rfl) _

/-- COLLECTIVE_TIMEOUT of a collective that is not complete (R359; a contained error by entry 26 of the log). -/
theorem exec_collectiveTimeout {r : CollRun} (hr : s.collRun d.val ax.val = some r) (hdone : s.collDone r = false) :
    exec (.collectiveTimeout d ax) s =
      .next (((s.collFail d.val ax.val r 0x40 (some 0)).contained).collPump).progress.settle := by
  change execCollectiveTimeout d ax s = _
  rw [execCollectiveTimeout, hr]
  exact happens_of (by rw [hl, hdone]; rfl) _

/-- COLL: a packet of a collective that has ended without completing is drained, any other waits for the engine (R351, R354). -/
theorem exec_coll {p : Packet} (hp : pktOk 0x10 1 128 p = true) (hfor : s.collFor d.val ax.val p = true) :
    let t := s.takeArrival p
    exec (.coll d ax p) s = .next (if s.coll.dead.contains (d.val, ax.val, fld p.w3 63 48)
      then (t.addReg (pRTR d.val) 0x140 1).collDrain (s.arrivalSlot p) p
      else ({ t with coll := { t.coll with
        waiting := t.coll.waiting ++ [(s.arrivalSlot p, d.val, ax.val, p)] } } : State).collPump).progress.settle :=
  (wellFormed_of hp _).trans (happens_of (Bool.and_eq_true_iff.2 ⟨hl, hfor⟩) _)

end Live

/-- Settles O35, row by row. That COLLECTIVE_TIMEOUT is a contained error is entry 26 of the log. -/
theorem collectiveRows : Obligations.CollectiveRows :=
  fun _ _ _ hl => ⟨fun _ => exec_collectiveStart hl, fun _ => exec_collectiveComplete_headerOnly hl,
    fun _ _ _ _ => exec_collectiveComplete_instruction hl, fun _ => exec_collectiveTimeout hl, fun _ => exec_coll hl⟩

end Sys2Proof.Machine
end

section
/-! SUPPORT. What serving a read of memory and raising an event leave of the host queues: the command queues themselves, and a register
table whose keys rise (R65, R300, R313 to R317, R393 to R397, R466). -/

namespace Sys2Proof.Machine

/-- The command queues of a state are `qs`, and its register table has its keys rising: what serving a read of memory and raising
an event keep, though either may write registers and report to the host. -/
structure State.QueuesStand (qs : Tab Queue) (s : State) : Prop where
  rising : Tab.sortedFrom 0 s.regs = true
  queues : s.hcq.queues = qs

namespace State.QueuesStand

variable {qs : Tab Queue} {s t : State}

/-! ## Updates of the state -/

theorem ite {c : Prop} [Decidable c] (hs : s.QueuesStand qs) (ht : t.QueuesStand qs) : (if c then s else t).QueuesStand qs := by
  split <;> assumption

variable (h : s.QueuesStand qs)
include h

theorem setReg (p o : Nat) (v : Word) : (s.setReg p o v).QueuesStand qs := ⟨State.sorted_setReg h.rising p o v, h.queues⟩
theorem setRf (p o hi lo v : Nat) : (s.setRf p o hi lo v).QueuesStand qs := h.setReg p o _
theorem addReg (p o n : Nat) : (s.addReg p o n).QueuesStand qs := h.setReg p o _
theorem emit (o : Out) : (s.emit o).QueuesStand qs := ⟨h.rising, h.queues⟩
theorem draw : s.draw.2.QueuesStand qs := ⟨h.rising, h.queues⟩
theorem setStack (i : Nat) (k : Stack) : (s.setStack i k).QueuesStand qs := ⟨h.rising, h.queues⟩
theorem setIsland (i : Nat) (k : Island) : (s.setIsland i k).QueuesStand qs := ⟨h.rising, h.queues⟩
theorem withHeld (l : List Rec) : ({ s with hcq := { s.hcq with held := l } } : State).QueuesStand qs := ⟨h.rising, h.queues⟩
theorem withUnacked (l : List Rec) : ({ s with hcq := { s.hcq with unacked := l } } : State).QueuesStand qs := ⟨h.rising, h.queues⟩
theorem withTokens (l : List Nat) : ({ s with pwr := { s.pwr with tokens := l } } : State).QueuesStand qs := ⟨h.rising, h.queues⟩
theorem withShut (w : ShutSt) : ({ s with shut := w } : State).QueuesStand qs := ⟨h.rising, h.queues⟩
theorem withBoard (b : Board) : ({ s with board := b } : State).QueuesStand qs := ⟨h.rising, h.queues⟩
theorem withInj (t : Tab Nat) : ({ s with inj := t } : State).QueuesStand qs := ⟨h.rising, h.queues⟩
theorem withMem (m : Mem) : ({ s with mem := m } : State).QueuesStand qs := ⟨h.rising, h.queues⟩

theorem foldl {β : Type} (l : List β) {f : State → β → State} (hf : ∀ t b, t.QueuesStand qs → (f t b).QueuesStand qs) :
    (l.foldl f s).QueuesStand qs :=
  List.foldlRecOn l f h fun t ht b _ => hf t b ht

/-! ## Records, events and freezes (R65, R393 to R397, R466) -/

theorem setEvtSeq : s.setEvtSeq.QueuesStand qs := h.setReg ..

theorem writeRec (r : Rec) : (s.writeRec r).QueuesStand qs := by
  simp only [State.writeRec, State.transmit]
  exact withUnacked (setRf (addReg (emit (emit h ..) ..) ..) ..) _

theorem flushFold (l : List Rec) (k : List Rec) :
    (l.foldl (fun (acc : State × List Rec) r =>
      if acc.1.ringReady r.queue then (acc.1.writeRec r, acc.2) else (acc.1, acc.2 ++ [r])) (s, k)).1.QueuesStand qs := by
  induction l generalizing s k with
  | nil => exact h
  | cons r l ih =>
    rw [List.foldl_cons]
    split
    · exact ih (h.writeRec r) k
    · exact ih h (k ++ [r])

theorem flushRecs : s.flushRecs.QueuesStand qs := by
  simp only [State.flushRecs]
  exact setEvtSeq (withHeld (flushFold h ..) _)

theorem nextDseq : s.nextDseq.2.QueuesStand qs := h.addReg ..

theorem queueEvent (page bit : Nat) : (s.queueEvent page bit).1.QueuesStand qs := by
  simp only [State.queueEvent]
  split
  · exact setEvtSeq (addReg h.nextDseq ..)
  · exact flushRecs (withHeld h.nextDseq _)

theorem setEvent (page bit : Nat) : (s.setEvent page bit).QueuesStand qs := addReg (setReg h ..) ..

theorem reportEvent (page bit : Nat) : (s.reportEvent page bit).QueuesStand qs := by
  have queued := h.queueEvent page bit
  simp only [State.reportEvent]
  exact ite h (ite (ite (setEvent queued ..) (queueEvent (setEvent queued ..) ..)) queued)

theorem raise0 (page bit : Nat) : (s.raise0 page bit).QueuesStand qs := (h.setEvent page bit).reportEvent page bit

theorem setJob (j : Nat) : (s.setJob j).QueuesStand qs := ite h (raise0 (setRf h ..) ..)

theorem selfRefresh : s.selfRefresh.QueuesStand qs := by
  unfold State.selfRefresh
  exact foldl h _ fun _ _ ht => ite (setStack ht ..) (setRf (setStack ht ..) ..)

theorem rampDown (i level : Nat) : (s.rampDown i level).QueuesStand qs := by
  simp only [State.rampDown, State.requestRamp]
  exact ite (ite (setIsland h ..) (withTokens (setIsland h ..) _)) h

theorem freeze (kind trig scope origin seq symKind : Nat) (inPort : Option Nat) :
    (s.freeze kind trig scope origin seq symKind inPort).QueuesStand qs := by
  have symbols : ∀ (v : Word) (l : List Nat), (if scope = 0 then s.setReg pSHT 0x110 v
      else l.foldl (fun s p => State.emit s (.frz p scope symKind origin seq)) (s.setReg pSHT 0x110 v)).QueuesStand qs :=
    fun v l => ite (setReg h ..) (foldl (setReg h ..) l fun _ _ ht => emit ht _)
  have ramped : ∀ {t : State}, t.QueuesStand qs →
      ((List.range 32).foldl (fun s i => State.rampDown s i (s.floorDemand i)) t).QueuesStand qs :=
    fun ht => foldl ht _ fun _ _ hu => rampDown hu ..
  unfold State.freeze
  dsimp only
  refine ite (symbols _ _) (raise0 (setJob (setRf (setRf (setRf (draw (ramped (selfRefresh ?_))) ..) ..) ..) _) ..)
  exact ite (withBoard (symbols _ _) _) (symbols _ _)

theorem raise (page bit : Nat) : (s.raise page bit).QueuesStand qs := by
  have set := h.raise0 page bit
  simp only [State.raise, State.trigFire, State.freezeHere]
  exact ite (freeze (withShut (withShut set _) _) ..) set

theorem raiseIf (c : Bool) (page bit : Nat) : (s.raiseIf c page bit).QueuesStand qs := ite (h.raise ..) h

/-- A completion record is queued, and CQ_STALL is raised where it is held (R394, R396). -/
theorem complete (q hseq status cls opcode result : Nat) : (s.complete q hseq status cls opcode result none).QueuesStand qs := by
  simp only [State.complete, State.queueCompletion]
  exact raiseIf (flushRecs (withHeld h.nextDseq _)) ..

/-! ## Reads of memory (R300, R313 to R317, R459) -/

theorem inject (page pt : Nat) : (s.inject page pt).2.QueuesStand qs := by
  simp only [State.inject]
  split_ifs
  · exact h
  · exact setRf (setRf h ..) ..
  · exact setRf (withInj h _) ..
  · exact withInj h _

theorem captureErr (page off kind v : Nat) : (s.captureErr page off kind v).QueuesStand qs := ite h (setReg h ..)

theorem contained : s.contained.QueuesStand qs := raise (addReg h ..) ..

theorem retrainRegs (i : Nat) : (s.retrainRegs i).QueuesStand qs := setRf (setRf h ..) ..

theorem startHold (i : Nat) : (s.startHold i).QueuesStand qs := by
  simp only [State.startHold]
  split
  · exact retrainRegs (raise (setStack h ..) ..) i
  · exact h

theorem triggerRetrain (i c : Nat) : (s.triggerRetrain i c).QueuesStand qs := by
  have pending := fun k => retrainRegs (setStack h i k) i
  simp only [State.triggerRetrain]
  exact ite h (ite (startHold (pending _) i) (pending _))

theorem autoRetire (i c : Nat) : (s.autoRetire i c).QueuesStand qs := by
  simp only [State.autoRetire, State.beginRetire]
  exact ite (setRf (setRf (setStack h ..) ..) ..) (raise h ..)

theorem stackCorrected (i c idx word : Nat) : (s.stackCorrected i c idx word).QueuesStand qs := by
  have counted := fun (u v : Nat) (k : Stack) => setStack (raise (captureErr (addReg h (pMEM i) 0x120 1) (pMEM i) 0x130 u v) (pMEM i) 0) i k
  simp only [State.stackCorrected]
  split_ifs
  · exact autoRetire (triggerRetrain (counted ..) ..) ..
  · exact autoRetire (counted ..) ..
  · exact triggerRetrain (counted ..) ..
  · exact counted ..

theorem stackUncorrectable (i c idx word : Nat) (line : Option Nat) : (s.stackUncorrectable i c idx word line).QueuesStand qs := by
  simp only [State.stackUncorrectable]
  refine contained (raise (captureErr (addReg ?_ ..) ..) ..)
  cases line with
  | none => exact h
  | some l => exact withMem h _

theorem injEcc (page : Nat) (e : Ecc) : (s.injEcc page e).2.QueuesStand qs := inject (inject h ..) ..

theorem stackWord (a : Nat) (e : Ecc) : (s.stackWord a e).QueuesStand qs := by
  simp only [State.stackWord, State.stackEcc]
  split
  · exact injEcc h ..
  · exact stackCorrected (injEcc h ..) ..
  · exact stackUncorrectable (injEcc h ..) ..

theorem sliceWord (sl a : Nat) (e : Ecc) : (s.sliceWord sl a e).QueuesStand qs := by
  simp only [State.sliceWord, State.sliceEcc]
  split
  · exact injEcc h ..
  · exact raise (captureErr (addReg (injEcc h ..) ..) ..) ..
  · exact contained (raise (captureErr (addReg (withMem (injEcc h ..) _) ..) ..) ..)

theorem takePlace (i c : Nat) : (s.takePlace i c).QueuesStand qs := by
  unfold State.takePlace
  split
  · exact h
  · exact setStack h ..

theorem inflightRegs (i reads writes : Nat) : (s.inflightRegs i reads writes).QueuesStand qs := h.setReg ..

theorem eccRead (a len : Nat) (cls : Option Nat) (hit : Bool) (e : Ecc) : (s.eccRead a len cls hit e).QueuesStand qs := by
  have missed := fun sl => ite (c := s.cacheMode sl = true) (addReg h (pLLC sl) 0x110 1) h
  simp only [State.eccRead]
  split
  · exact foldl h _ fun _ _ ht => sliceWord ht ..
  · refine ite (foldl (addReg h ..) _ fun _ _ ht => sliceWord ht ..) ?_
    cases cls with
    | none => exact ite (inflightRegs (missed _) ..) (foldl (inflightRegs (missed _) ..) _ fun _ _ ht => stackWord ht ..)
    | some c =>
      exact ite (takePlace (inflightRegs (missed _) ..) ..)
        (foldl (takePlace (inflightRegs (missed _) ..) ..) _ fun _ _ ht => stackWord ht ..)
  · exact h

theorem readReq (a len : Nat) (cls : Option Nat) : (s.readReq a len cls).2.QueuesStand qs := by
  unfold State.readReq
  split
  · exact eccRead h ..
  · split
    · exact eccRead h.draw ..
    · exact eccRead h ..
  · exact h

end State.QueuesStand

theorem State.queuesStand_of_inv {s : State} (h : Safety.Inv s) : s.QueuesStand s.hcq.queues := ⟨Regs.sorted_of_wf h.1, rfl⟩

theorem State.QueuesStand.queue {qs : Tab Queue} {s : State} (h : s.QueuesStand qs) (q : Nat) : s.queue q = Tab.get qs {} q := by
  rw [State.queue, h.queues]

end Sys2Proof.Machine
end

section
/-! SUPPORT. The proofs of the statements about the host queues: the sequence numbers of fetched entries, the rows of the queues,
and the commands, served and refused (R226, R227, R283, R380, R394 to R407). -/

namespace Sys2Proof.Machine

/-! ## The sequence numbers of fetched entries (R394, R395) -/

/-- SEQ_ACCEPTED is no register that reporting to the host may write. -/
theorem eventReg_accepted (q : Nat) : Safety.EventReg pCFE (qOff q 0x30) = false := by
  simp [Safety.EventReg, qOff, pCFE, pSHT]
  omega

theorem qOff_lt (q : Nat) {off : Nat} (h : off < 0x40) : qOff q off < 4096 := by unfold qOff; omega

/-- Two registers of one queue share no key. -/
theorem qOff_key_ne (q : Nat) {off off' : Nat} (h : off < 0x40) (h' : off' < 0x40) (hne : off ≠ off') :
    regKey pCFE (qOff q off) ≠ regKey pCFE (qOff q off') := by
  rw [Ne, regKey_inj (qOff_lt q h) (qOff_lt q h')]
  unfold qOff
  omega

theorem State.raiseIf_at {p o : Nat} (h : Safety.EventReg p o = false) (ho : o < 4096) (s : State) (c : Bool) (page bit : Nat) :
    State.regAt p o (s.raiseIf c page bit) = State.regAt p o s := by
  cases c
  · rfl
  · exact State.raise_at h ho s page bit

/-- Queuing a completion record writes no register but those of `Safety.EventReg`. -/
theorem State.complete_keep {p o : Nat} (h : Safety.EventReg p o = false) (ho : o < 4096) (s : State)
    (q hseq status cls opcode result : Nat) : (s.complete q hseq status cls opcode result none).reg p o = s.reg p o := by
  rw [← State.regAt_eq, ← State.regAt_eq]
  simp only [State.complete, State.queueCompletion]
  rw [State.raiseIf_at h ho, State.flushRecs_keep h ho, State.withHcq_at, State.nextDseq_keep h ho]

section Fetch

variable (s : State) (q : Nat)

/-- The state in which the CFE has read the next entry of a queue. -/
def State.entryRead : State := (s.readReq (s.nextEntry q) 64 (some 0)).2

/-- The entry that it has read. -/
def State.entryDesc : Desc := descOf ((s.entryRead q).bytes (s.nextEntry q) 64)

/-- HSEQ of the entry. -/
def State.entrySeq : Nat := (s.entryDesc q).w1.toNat

/-- SEQ_ACCEPTED as HSEQ is judged against it. -/
def State.seqAccepted : Nat := ((s.entryRead q).reg pCFE (qOff q 0x30)).toNat

/-- The state with the entry taken off its ring: SQ_HEAD has advanced. -/
def State.entryTaken : State := (s.entryRead q).setRf pCFE (qOff q 0x20) 31 0 (s.rf pCFE (qOff q 0x20) 31 0 + 1)

/-- The state with the entry taken and its number in SEQ_ACCEPTED. -/
def State.entryAccepted : State := (s.entryTaken q).setReg pCFE (qOff q 0x30) (BitVec.ofNat 64 (s.entrySeq q))

/-- The state with the entry accepted and its command in execution. -/
def State.entryBegun : State :=
  (s.entryAccepted q).setQueue q { (s.entryAccepted q).queue q with
    cur := some { desc := s.entryDesc q, hseq := s.entrySeq q, ver := (s.entryAccepted q).rf pCFE (qOff q 0x00) 17 16 } }

theorem State.fetchCmd_eq : s.fetchCmd q =
    if s.entrySeq q = s.seqAccepted q + 1 then
      if 1 ≤ fld (s.entryDesc q).w0 7 0 ∧ fld (s.entryDesc q).w0 7 0 ≤ 0x0C then s.entryBegun q
      else (s.entryBegun q).completeCmd q cRANGE 0 0
    else if s.entrySeq q ≤ s.seqAccepted q ∧ s.entrySeq q ≠ 0 then
      (s.entryTaken q).complete q (s.entrySeq q) 0x40 0x10 (fld (s.entryDesc q).w0 7 0) ((s.entryTaken q).dupResult q (s.entrySeq q)) none
    else (s.entryTaken q).complete q (s.entrySeq q) 0x41 0x10 (fld (s.entryDesc q).w0 7 0) 0 none := by
  unfold State.fetchCmd State.entryBegun State.entryAccepted State.entryTaken State.entrySeq State.seqAccepted State.entryDesc
    State.entryRead
  rfl

variable {s q}

/-- An entry with the next number and the opcode of a command comes into execution. -/
theorem State.fetchCmd_next (h : s.entrySeq q = s.seqAccepted q + 1) (hlo : 1 ≤ fld (s.entryDesc q).w0 7 0)
    (hhi : fld (s.entryDesc q).w0 7 0 ≤ 0x0C) : s.fetchCmd q = s.entryBegun q := by
  rw [State.fetchCmd_eq, if_pos h, if_pos ⟨hlo, hhi⟩]

/-- An entry with a number that has been accepted completes with DUPLICATE. -/
theorem State.fetchCmd_duplicate (h : s.entrySeq q ≤ s.seqAccepted q) (h0 : s.entrySeq q ≠ 0) :
    s.fetchCmd q = (s.entryTaken q).complete q (s.entrySeq q) 0x40 0x10 (fld (s.entryDesc q).w0 7 0)
      ((s.entryTaken q).dupResult q (s.entrySeq q)) none := by
  rw [State.fetchCmd_eq, if_neg (by omega), if_pos ⟨h, h0⟩]

/-- An entry with a number beyond the next, or with none, completes with SEQ_GAP. -/
theorem State.fetchCmd_gap (h : s.seqAccepted q + 1 < s.entrySeq q ∨ s.entrySeq q = 0) :
    s.fetchCmd q = (s.entryTaken q).complete q (s.entrySeq q) 0x41 0x10 (fld (s.entryDesc q).w0 7 0) 0 none := by
  rw [State.fetchCmd_eq, if_neg (by omega), if_neg (by omega)]

/-- An entry that is not accepted completes at once: DUPLICATE or SEQ_GAP. -/
theorem State.fetchCmd_completes (h : s.entrySeq q ≠ s.seqAccepted q + 1) :
    ∃ status result, s.fetchCmd q =
      (s.entryTaken q).complete q (s.entrySeq q) status 0x10 (fld (s.entryDesc q).w0 7 0) result none := by
  by_cases hdup : s.entrySeq q ≤ s.seqAccepted q ∧ s.entrySeq q ≠ 0
  · exact ⟨_, _, State.fetchCmd_duplicate hdup.1 hdup.2⟩
  · exact ⟨_, _, State.fetchCmd_gap (by omega)⟩

variable (hinv : Safety.Inv s)
include hinv

theorem State.entryTaken_stands : (s.entryTaken q).QueuesStand s.hcq.queues :=
  ((State.queuesStand_of_inv hinv).readReq ..).setRf ..

/-- SEQ_ACCEPTED stands when an entry is not accepted, and no command comes into execution. -/
theorem State.fetchCmd_unaccepted (h : s.entrySeq q ≠ s.seqAccepted q + 1) :
    ((s.fetchCmd q).reg pCFE (qOff q 0x30)).toNat = s.seqAccepted q ∧ ((s.fetchCmd q).queue q).cur = (s.queue q).cur := by
  obtain ⟨status, result, he⟩ := State.fetchCmd_completes h
  rw [he]
  constructor
  · rw [State.complete_keep (eventReg_accepted q) (qOff_lt q (by decide)), State.entryTaken,
      State.reg_setRf_ne _ _ _ _ (qOff_key_ne q (by decide) (by decide) (by decide)), State.seqAccepted]
  · rw [((State.entryTaken_stands hinv).complete ..).queue, State.queue]

/-- SEQ_ACCEPTED is the number of an entry that is accepted. -/
theorem State.fetchCmd_accepted (h : s.entrySeq q = s.seqAccepted q + 1) (hlo : 1 ≤ fld (s.entryDesc q).w0 7 0)
    (hhi : fld (s.entryDesc q).w0 7 0 ≤ 0x0C) : ((s.fetchCmd q).reg pCFE (qOff q 0x30)).toNat = s.entrySeq q := by
  rw [State.fetchCmd_next h hlo hhi, State.entryBegun, State.setQueue_reg, State.entryAccepted,
    State.reg_setReg_self (State.entryTaken_stands hinv).rising, State.entrySeq, BitVec.ofNat_toNat, BitVec.setWidth_eq]

end Fetch

/-- Settles O40: HSEQ is the next number, one that has been accepted, or neither, and only the next is written to SEQ_ACCEPTED. -/
theorem hostSequenceCases : Obligations.HostSequenceCases := by
  intro s q hinv
  exact ⟨State.fetchCmd_next, State.fetchCmd_duplicate, State.fetchCmd_gap, State.fetchCmd_unaccepted hinv,
    State.fetchCmd_accepted hinv⟩

/-! ## The rows of the queues (R394, R397, R407) -/

section Queue

variable {s : State} {q : QueueId} {src : Src}

/-- A queue takes a TAIL within its depth (R394). -/
theorem State.doorbell_within {n tail : Nat} (hon : s.queueOn n = true)
    (hd : (tail + 2 ^ 32 - s.rf pCFE (qOff n 0x20) 31 0) % 2 ^ 32 ≤ 2 ^ s.rf pCFE (qOff n 0x00) 23 20) :
    s.doorbell n tail = (cOK, s.setRf pCFE (qOff n 0x20) 63 32 tail) := by
  rw [State.doorbell, hon, if_neg (by decide), if_neg (Nat.not_lt.2 hd)]

/-- A queue is enabled with its configuration and version 1 (R407). -/
theorem State.queueWrite_enable {n : Nat} {v : Word} (hv : bitAt v 0 = true) (hoff : bitAt (s.reg pCFE (qOff n 0x00)) 0 = false)
    (hc : s.queueCheck n v = cOK) :
    s.queueWrite n v = (cOK, (s.setReg pCFE (qOff n 0x00) ((v &&& queueBits) ||| BitVec.ofNat 64 (2 ^ 16 + 1))).flushRecs) := by
  simp [State.queueWrite, hv, hoff, hc]

/-- A queue is disabled in every state by a write that leaves its configuration (R54, R407). -/
theorem State.queueWrite_disable {n : Nat} {v : Word} (hv : bitAt v 0 = false)
    (hsame : s.reg pCFE (qOff n 0x00) &&& queueBits = v &&& queueBits) :
    s.queueWrite n v = (cOK, s.setReg pCFE (qOff n 0x00) (v &&& queueBits)) := by
  simp [State.queueWrite, hv, hsame]

theorem exec_doorbell (h : s.reaches src = true) {tail : BitVec 32} (hp : s.pageCode pCFE1 (0x100 + 8 * q.val) = none)
    (hon : s.queueOn q.val = true)
    (hd : (tail.toNat + 2 ^ 32 - s.rf pCFE (qOff q.val 0x20) 31 0) % 2 ^ 32 ≤ 2 ^ s.rf pCFE (qOff q.val 0x00) 23 20) :
    exec (.doorbell q tail src) s = .next (s.setRf pCFE (qOff q.val 0x20) 63 32 tail.toNat).progress.settle := by
  change execDoorbell q tail src s = _
  rw [execDoorbell, State.doorbell_within hon hd]
  exact serveRow_accepted h hp

theorem exec_commandFetch (hf : s.mayFetch q.val = true) :
    exec (.commandFetch q) s = .next (s.fetchCmd q.val).progress.settle := happens_of hf _

theorem exec_queueEnable (h : s.reaches src = true) {v : Word} (hp : s.pageCode pCFE (qOff q.val 0x00) = none)
    (hv : bitAt v 0 = true) (hoff : bitAt (s.reg pCFE (qOff q.val 0x00)) 0 = false) (hc : s.queueCheck q.val v = cOK) :
    exec (.queueEnable q v src) s = .next ((s.setReg pCFE (qOff q.val 0x00)
      ((v &&& queueBits) ||| BitVec.ofNat 64 (2 ^ 16 + 1))).flushRecs).progress.settle := by
  change execQueueEnable q v src s = _
  rw [execQueueEnable, wellFormed_of hv, State.queueWrite_enable hv hoff hc, serveRow_accepted h hp]

theorem exec_queueDisable (h : s.reaches src = true) {v : Word} (hp : s.pageCode pCFE (qOff q.val 0x00) = none)
    (hv : bitAt v 0 = false) (hsame : s.reg pCFE (qOff q.val 0x00) &&& queueBits = v &&& queueBits) :
    exec (.queueDisable q v src) s = .next (s.setReg pCFE (qOff q.val 0x00) (v &&& queueBits)).progress.settle := by
  change execQueueDisable q v src s = _
  rw [execQueueDisable, wellFormed_of (by rw [hv]; rfl), State.queueWrite_disable hv hsame, serveRow_accepted h hp]

theorem exec_recordWriteAck (hl : s.live = true) {d : Nat} {r : Rec} (hr : s.hcq.unacked.find? (fun r => r.dseq == d) = some r) :
    exec (.recordWriteAck d) s =
      .next ((({ s with hcq := { s.hcq with unacked := s.hcq.unacked.filter (fun r => r.dseq != d) } } : State).mapQp r.port r.qpn
        (fun k => { k with tries := 0 })).setEvtSeq).progress.settle := by
  change execRecordWriteAck d s = _
  rw [execRecordWriteAck, hr]
  exact happens_of hl _

end Queue

/-- Settles O39, row by row. -/
theorem queueRows : Obligations.QueueRows :=
  fun _ _ _ h => ⟨fun _ => exec_doorbell h, exec_commandFetch, fun _ hp => ⟨exec_queueEnable h hp, exec_queueDisable h hp⟩,
    fun _ _ hl => exec_recordWriteAck hl⟩

/-! ## The commands (R227, R283, R380, R398 to R404) -/

section Command

variable {s : State} {q : Nat} {c : Cmd} (hl : s.live = true) (hc : (s.queue q).cur = some c)
include hl hc

section Judged

variable (hb : c.begun = false) {op : Nat} (hop : fld c.desc.w0 7 0 = op)
include hb hop

/-- A command that has not begun is judged: it is served, or it completes with the code that refuses it (R398, R399). -/
theorem State.runCmd_judged (checks : Cmd → List Check) (states : List Nat) (eff : Cmd → State → State) :
    s.runCmd q op checks states eff = .next (match s.judge c (checks c) states with
      | some code => s.completeCmd q code 0 0
      | none => eff c s).progress.settle := by
  rw [State.runCmd, hc]
  exact happens_of (by simp [hl, hb, hop]) _

/-- A command that nothing refuses has its effect. -/
theorem State.runCmd_served {checks : Cmd → List Check} {states : List Nat} (hj : s.judge c (checks c) states = none)
    (eff : Cmd → State → State) : s.runCmd q op checks states eff = .next (eff c s).progress.settle := by
  rw [State.runCmd_judged hl hc hb hop, hj]

/-- A refused command completes with the code of its refusal, class 0 and RESULT 0. -/
theorem State.runCmd_refused {checks : Cmd → List Check} {states : List Nat} {code : Nat}
    (hj : s.judge c (checks c) states = some code) (eff : Cmd → State → State) :
    s.runCmd q op checks states eff = .next (s.completeCmd q code 0 0).progress.settle := by
  rw [State.runCmd_judged hl hc hb hop, hj]

end Judged

end Command

section Rows

variable {s : State} {q : QueueId} {c : Cmd} (hl : s.live = true) (hc : (s.queue q.val).cur = some c)
include hl hc

section Begins

variable (hb : c.begun = false)
include hb

theorem exec_nop (hop : fld c.desc.w0 7 0 = 0x01) (hj : s.judge c (resvWords c.desc [2, 3, 4, 5, 6, 7]) unfrozen = none) :
    exec (.nop q) s = .next (s.completeCmd q.val cOK 0 0).progress.settle := by
  change execNop q s = _
  exact State.runCmd_served hl hc hb hop hj _

theorem exec_negotiate (hop : fld c.desc.w0 7 0 = 0x02) (hj : s.judge c (resvWords c.desc [3, 4, 5, 6, 7] ++
      [resv c.desc 2 63 3, (2, 0, cVERSION, offered c.desc.w2 == 0)]) unfrozen = none) :
    exec (.negotiate q) s = .next ((s.takeVersion q.val (offered c.desc.w2)).completeCmd q.val cOK 0
      (offered c.desc.w2)).progress.settle := by
  change execNegotiate q s = _
  exact State.runCmd_served hl hc hb hop hj _

theorem exec_load (hop : fld c.desc.w0 7 0 = 0x03) (hr : s.cmdReads q.val (fun d => [(fld d.w2 47 0, fld d.w3 39 0)]) = true)
    (hw : s.wicketNoJob = false) (hj : s.judge c (s.loadChecks c) [0] = none) :
    exec (.load q) s =
      .next ((s.loadImage (fld c.desc.w2 47 0) (fld c.desc.w3 39 0)).completeCmd q.val cOK 0 0).progress.settle := by
  change execLoad q s = _
  rw [execLoad, if_pos hr, hw]
  exact State.runCmd_served hl hc hb hop hj _

theorem exec_unload (hop : fld c.desc.w0 7 0 = 0x04) (hj : s.judge c (resvWords c.desc [2, 3, 4, 5, 6, 7]) [1, 6] = none) :
    let t := s.endBarrier.resetAll
    exec (.unload q) s = .next ((({ t with hcq := { t.hcq with
      image := none
      entries := [] } } : State).setJob 0).completeCmd q.val cOK 0 0).progress.settle := by
  change execUnload q s = _
  exact State.runCmd_served hl hc hb hop hj _

theorem exec_start (hop : fld c.desc.w0 7 0 = 0x05) (hw : s.wicketNoJob = false)
    (hj : s.judge c (resvWords c.desc [2, 3, 4, 5, 6, 7]) [1] = none) (hcode : s.startCode = cOK) :
    exec (.start q) s = .next (s.startJob q.val).progress.settle := by
  change execStart q s = _
  rw [execStart, hw]
  exact (State.runCmd_served hl hc hb hop hj _).trans (by rw [if_pos hcode])

theorem exec_stop (hop : fld c.desc.w0 7 0 = 0x06) (hj : s.judge c (resvWords c.desc [2, 3, 4, 5, 6, 7]) [2, 3, 6] = none) :
    exec (.stop q) s =
      .next ((((s.setJob 4).endBarrier.resetAll).setJob 1).completeCmd q.val cOK 0 0).progress.settle := by
  change execStop q s = _
  exact State.runCmd_served hl hc hb hop hj _

theorem exec_preempt (hop : fld c.desc.w0 7 0 = 0x07) (hj : s.judge c (resvWords c.desc [2, 3, 4, 5, 6, 7]) [2] = none) :
    exec (.preempt q) s = .next (s.mapCmd q.val (fun c => { c with begun := true })).progress.settle := by
  change execPreempt q s = _
  exact State.runCmd_served hl hc hb hop hj _

theorem exec_resume (hop : fld c.desc.w0 7 0 = 0x08) (hj : s.judge c (resvWords c.desc [2, 3, 4, 5, 6, 7]) [3] = none) :
    exec (.resume q) s = .next (s.resumeJob.completeCmd q.val cOK 0 0).progress.settle := by
  change execResume q s = _
  exact State.runCmd_served hl hc hb hop hj _

theorem exec_stepCommit (hop : fld c.desc.w0 7 0 = 0x09) (hg : s.genBase = 2)
    (hj : s.judge c (resvWords c.desc [4, 5, 6, 7] ++ [(2, 0, cCONFLICT, c.desc.w2 != s.reg pCFE 0x1C0), resv c.desc 3 63 3]) [2] =
      none) :
    exec (.stepCommit q) s = .next ((({ s with hcq := { s.hcq with commits := s.hcq.commits ++ [q.val] } } : State).mapCmd
      q.val (fun c => { c with begun := true })).progress.settle) := by
  change execStepCommit q s = _
  rw [execStepCommit, if_pos hg]
  exact State.runCmd_served hl hc hb hop hj _

theorem exec_xfer (hop : fld c.desc.w0 7 0 = 0x0A) (hroom : s.readRoom c.desc = true) (hr : s.cmdReads q.val xferSpans = true)
    (hj : s.judge c (s.xferChecks c) [1, 2, 3, 6] = none) :
    exec (.xfer q) s = .next (s.startXfer q.val c.desc).progress.settle := by
  change execXfer q s = _
  rw [execXfer, hc]
  exact (if_pos (Bool.and_eq_true_iff.2 ⟨hroom, hr⟩)).trans (State.runCmd_served hl hc hb hop hj _)

theorem exec_snapshot (hop : fld c.desc.w0 7 0 = 0x0B) (hr : s.cmdReads q.val s.snapSpans = true)
    (hj : s.judge c (s.snapChecks c) [2, 3, 6] = none) :
    exec (.snapshot q) s = .next (s.startSnap q.val c.desc).progress.settle := by
  change execSnapshot q s = _
  rw [execSnapshot, if_pos hr]
  exact State.runCmd_served hl hc hb hop hj _

theorem exec_attest (hop : fld c.desc.w0 7 0 = 0x0C) (hj : s.judge c (s.attestChecks c) unfrozen = none) :
    exec (.attest q) s = .next (s.startAttest q.val c.desc).progress.settle := by
  change execAttest q s = _
  exact State.runCmd_served hl hc hb hop hj _

end Begins

section Ends

variable (hb : c.begun = true) (hm : c.moved = c.total)
include hb hm

/-- A transfer ends with what stopped it, or signals its tally and completes (R402). -/
theorem exec_xferComplete (hop : fld c.desc.w0 7 0 = 0x0A) :
    exec (.xferComplete q) s = .next (match c.stop with
      | some e => s.completeCmd q.val e.1 e.2 0
      | none => (s.xferSignal c.desc).2.2.completeCmd q.val (s.xferSignal c.desc).1 (s.xferSignal c.desc).2.1 0).progress.settle := by
  change execXferComplete q s = _
  rw [execXferComplete, hc]
  exact happens_of (by simp [hl, hb, hop, hm]) _

/-- A snapshot releases its pins and completes (R227). -/
theorem exec_pinRelease (hop : fld c.desc.w0 7 0 = 0x0B) :
    exec (.pinRelease q) s =
      .next ((s.dropPins q.val).completeCmd q.val (c.stop.getD (cOK, 0)).1 (c.stop.getD (cOK, 0)).2 c.total).progress.settle := by
  change execPinRelease q s = _
  rw [execPinRelease, hc]
  exact happens_of (by simp [hl, hb, hop, hm]) _

end Ends

end Rows

/-- Settles O41, row by row: each command is served by `State.runCmd` once its own conditions hold. -/
theorem hostCommandRows : Obligations.HostCommandRows :=
  ⟨fun _ _ _ hl hc hb => ⟨exec_nop hl hc hb, exec_negotiate hl hc hb, exec_load hl hc hb, exec_unload hl hc hb,
      exec_start hl hc hb, exec_stop hl hc hb, exec_preempt hl hc hb, exec_resume hl hc hb, exec_stepCommit hl hc hb,
      exec_xfer hl hc hb, exec_snapshot hl hc hb, exec_attest hl hc hb⟩,
    fun _ _ _ hl hc hb hm => ⟨exec_xferComplete hl hc hb hm, exec_pinRelease hl hc hb hm⟩⟩

/-- Settles O42: each of the five rows judges its command by `State.runCmd`, which turns it away. -/
theorem refusedCommandCompletes : Obligations.RefusedCommandCompletes := by
  intro s q c code op e states hl hc hb hrow hop hj
  simp only [List.mem_cons, List.not_mem_nil, or_false, Prod.mk.injEq] at hrow
  obtain ⟨rfl, rfl, rfl⟩ | ⟨rfl, rfl, rfl⟩ | ⟨rfl, rfl, rfl⟩ | ⟨rfl, rfl, rfl⟩ | ⟨rfl, rfl, rfl⟩ := hrow
  · change execNop q s = _
    exact State.runCmd_refused hl hc hb hop hj _
  · change execUnload q s = _
    exact State.runCmd_refused hl hc hb hop hj _
  · change execStop q s = _
    exact State.runCmd_refused hl hc hb hop hj _
  · change execPreempt q s = _
    exact State.runCmd_refused hl hc hb hop hj _
  · change execResume q s = _
    exact State.runCmd_refused hl hc hb hop hj _

end Sys2Proof.Machine
end

section
/-! SUPPORT. The proofs of the statements about host Ethernet: the operations of remote QPs, connections, congestion, errors and
links (R385 to R393, R409), and what a refused operation leaves. -/

namespace Sys2Proof.Machine

/-! ## A refused operation (R389) -/

@[simp] theorem State.accessNak_unraised (s : State) (p qpn : Nat) : (s.accessNak p qpn).unraised = s.unraised := by
  simp only [State.accessNak, State.rdmaRefuse, State.raise_unraised, State.transmit_unraised, State.addReg_unraised,
    State.emit_unraised]

theorem State.transmit_reg_ne (s : State) {p n p' o' : Nat} (h : regKey p' o' ≠ regKey (pETH p) 0x120) :
    (s.transmit p n).reg p' o' = s.reg p' o' := State.reg_addReg_ne _ _ h

/-- A refusal counts the NAK and the frame that carries it, and raises ACCESS. -/
theorem State.accessNak_reg (s : State) {p qpn p' o' : Nat} (ho : o' < 4096) (he : Safety.EventReg p' o' = false)
    (hnak : (p', o') ≠ (pRCE p, 0x130)) (hframe : (p', o') ≠ (pETH p, 0x120)) :
    (s.accessNak p qpn).reg p' o' = s.reg p' o' := by
  have key_ne : ∀ {page off : Nat}, off < 4096 → (p', o') ≠ (page, off) → regKey p' o' ≠ regKey page off := fun hoff hne => by
    rwa [Ne, regKey_inj ho hoff, ← Prod.mk.injEq]
  rw [State.accessNak, State.raise_keep he ho, State.rdmaRefuse, State.transmit_reg_ne _ (key_ne (by decide) hframe),
    State.reg_addReg_ne _ _ (key_ne (by decide) hnak)]
  rfl

/-- Settles O44: a refusal sends a NAK, counts it and raises ACCESS (R389). -/
theorem refusedRdmaKeepsMemory : Obligations.RefusedRdmaKeepsMemory := fun s p qpn =>
  have h := s.accessNak_unraised p.val qpn
  ⟨State.mem_of_unraised h, State.cores_of_unraised h, State.arrs_of_unraised h, State.txn_of_unraised h, State.sync_of_unraised h,
    fun _ _ => s.accessNak_reg⟩

/-! ## The operations of remote QPs (R388 to R392) -/

section Port

variable {s : State} {p : EthId}

/-- A port whose arrivals somebody serves takes frames. -/
theorem State.portTakes_of_serves {p : Nat} (h : s.portServes p = true) : s.portTakes p = true := by
  rw [State.portServes, Bool.and_eq_true] at h
  exact h.1

/-- A QP that is usable is there and whole. -/
theorem State.whole_of_usable {p qpn : Nat} {k : Qp} (h : s.qpUsable p qpn = true) (hk : s.findQp p qpn = some k) : k.err = false := by
  simpa [State.qpUsable, hk] using h

section Served

variable (hs : s.portServes p.val = true)
include hs

section Operation

variable {qpn : Nat} (hu : s.qpUsable p.val qpn = true)
include hu

/-- What arrives for a usable QP of a port that serves it has its effect. -/
theorem State.arrives_served (n : Nat) (f : State → State) :
    s.arrives p.val qpn n f = .next (f (s.receive p.val n)).progress.settle := by
  simp [State.arrives, State.portTakes_of_serves hs, hs, hu, State.advance_eq]

/-- An RDMA WRITE that the check has passed is stored and acknowledged before a warm reset that it orders (R389, R426). -/
theorem exec_rdmaWrite_allowed {key : BitVec 32} {a : BitVec 48} {d : List Byte} {warm : Bool} {u : State}
    (hok : s.rdmaAllowed p.val key.toNat a.toNat d.length true = true)
    (hst : (s.receive p.val (s.frames p.val d.length)).rdmaStore a.toNat d = some (warm, u)) :
    let v := (u.emit (.rdmaAck p.val qpn)).transmit p.val 1
    exec (.rdmaWrite p qpn key a d) s = .next (if warm then v.warmReset 2 else v).progress.settle := by
  change execRdmaWrite p qpn key a d s = _
  simp only [execRdmaWrite, State.portTakes_of_serves hs, hs, hu, hok, hst, Bool.and_self, Bool.not_true, Bool.false_eq_true, if_false,
    State.advance_eq]

theorem exec_rdmaWrite_refused {key : BitVec 32} {a : BitVec 48} {d : List Byte}
    (hno : s.rdmaAllowed p.val key.toNat a.toNat d.length true = false) :
    exec (.rdmaWrite p qpn key a d) s =
      .next ((s.receive p.val (s.frames p.val d.length)).accessNak p.val qpn).progress.settle := by
  change execRdmaWrite p qpn key a d s = _
  simp only [execRdmaWrite, State.portTakes_of_serves hs, hs, hu, hno, Bool.and_self, Bool.not_true, Bool.not_false, Bool.false_eq_true,
    if_false, if_true, State.advance_eq]

/-- An RDMA READ is served where the memory that it may read need not wait (R389 to R391). -/
theorem exec_rdmaRead {key : BitVec 32} {a : BitVec 48} {n : Nat}
    (hw : s.rdmaAllowed p.val key.toNat a.toNat n false = true → a.toNat < regBase → s.memWaits a.toNat n = false) :
    exec (.rdmaRead p qpn key a n) s = .next (if s.rdmaAllowed p.val key.toNat a.toNat n false
      then (s.receive p.val 1).rdmaFetch p.val qpn a.toNat n else (s.receive p.val 1).accessNak p.val qpn).progress.settle := by
  change execRdmaRead p qpn key a n s = _
  rw [execRdmaRead]
  refine (if_neg ?_).trans (State.arrives_served hs hu 1 _)
  simp only [Bool.and_eq_true, decide_eq_true_eq]
  rintro ⟨⟨⟨-, hok⟩, hlow⟩, hwait⟩
  rw [hw hok hlow] at hwait
  cases hwait

theorem exec_sendReject :
    exec (.sendReject p qpn) s = .next ((s.receive p.val 1).rdmaRefuse p.val qpn 1).progress.settle := by
  change execSendReject p qpn s = _
  exact State.arrives_served hs hu 1 _

theorem exec_rdmaAtomicReject :
    exec (.rdmaAtomicReject p qpn) s = .next ((s.receive p.val 1).accessNak p.val qpn).progress.settle := by
  change execRdmaAtomicReject p qpn s = _
  exact State.arrives_served hs hu 1 _

/-- CNP halves the rate of its QP, down to 1 % of the port rate (R387). -/
theorem exec_cnp : exec (.cnp p qpn) s = .next ((s.receive p.val 1).mapQp p.val qpn
    (fun k => { k with rate := max (1 / 100) (k.rate / 2) })).progress.settle := by
  change execCnp p qpn s = _
  exact State.arrives_served hs hu 1 _

/-- A marked frame is answered with a CNP once the interval since the last has passed (R387). -/
theorem exec_ecnMark (us : Nat) :
    let t := s.receive p.val 1
    exec (.ecnMark p qpn us) s = .next (if bitAt (s.reg (pRCE p.val) 0x100) 8 && decide (s.rf (pRCE p.val) 0x100 31 16 ≤ us)
      then (t.emit (.cnp p.val qpn)).transmit p.val 1 else t).progress.settle := by
  change execEcnMark p qpn us s = _
  exact State.arrives_served hs hu 1 _

theorem exec_rdmaResponse {r : RdmaResp} {t : State} (ht : (s.receive p.val 1).takeResponse p.val qpn r = some t) :
    exec (.rdmaResponse p qpn r) s = .next t.progress.settle := by
  change execRdmaResponse p qpn r s = _
  simp only [execRdmaResponse, State.portTakes_of_serves hs, hs, hu, ht, Bool.and_self, Bool.not_true, Bool.false_eq_true, if_false,
    State.advance_eq]

end Operation

/-! ## Connections (R388) -/

/-- CM_REQUEST of a source that may connect, while a QP is free, connects it. -/
theorem exec_cmRequest_accepted {qpn : Nat} {ip : BitVec 128} {retries : Fin 8} (hq : qpn < 2 ^ 24)
    (hmay : s.mayConnect p.val ip.toNat = true) (hfree : s.qpCount p.val < 1024) (hnew : s.qpUsable p.val qpn = false) :
    exec (.cmRequest p ip ⟨qpn, retries⟩) s =
      .next ((s.receive p.val 1).connect p.val ip.toNat qpn retries.val).progress.settle := by
  change execCmRequest p ip ⟨qpn, retries⟩ s = _
  rw [execCmRequest, wellFormed_of (decide_eq_true hq)]
  simp only [State.portTakes_of_serves hs, hs, hmay, hnew, Bool.not_true, Bool.false_eq_true, if_false, if_neg (Nat.not_le.2 hfree),
    State.advance_eq]

/-- CM_REQUEST of any other source is rejected. -/
theorem exec_cmRequest_rejected {qpn : Nat} {ip : BitVec 128} {retries : Fin 8} (hq : qpn < 2 ^ 24)
    (hmay : s.mayConnect p.val ip.toNat = false) :
    exec (.cmRequest p ip ⟨qpn, retries⟩) s =
      .next ((((s.receive p.val 1).emit (.cmReject p.val false)).transmit p.val 1).raise (pRCE p.val) 3).progress.settle := by
  change execCmRequest p ip ⟨qpn, retries⟩ s = _
  rw [execCmRequest, wellFormed_of (decide_eq_true hq)]
  simp only [State.portTakes_of_serves hs, hs, hmay, Bool.not_true, Bool.not_false, Bool.false_eq_true, if_false, if_true,
    State.advance_eq]

end Served

/-! ## Frames of no QP, errors and links (R385, R387, R388, R409) -/

theorem exec_pfcPause (ht : s.portTakes p.val = true) (prio : Fin 8) :
    exec (.pfcPause p prio) s = .next ((s.receive p.val 1).addReg (pETH p.val) 0x140 1).progress.settle :=
  if_neg (by simp [ht])

theorem exec_ethFcsErr_fcs (ht : s.portTakes p.val = true) :
    exec (.ethFcsErr p .fcs) s = .next ((s.addReg (pETH p.val) 0x118 1).addReg (pETH p.val) 0x128 1).settle :=
  if_neg (by simp [ht])

theorem exec_ethFcsErr_fec (ht : s.portTakes p.val = true) :
    exec (.ethFcsErr p .fecUncorrectable) s =
      .next (((s.addReg (pETH p.val) 0x118 1).addReg (pETH p.val) 0x138 1).raise (pETH p.val) 2).progress.settle :=
  if_neg (by simp [ht])

section Live

variable (hl : s.live = true) {qpn : Nat} (hu : s.qpUsable p.val qpn = true)
include hl hu

theorem exec_rateRecover :
    exec (.rateRecover p qpn) s = .next (s.mapQp p.val qpn (fun k => { k with rate := min 1 (k.rate + 1 / 20) })).settle :=
  occurs_of (Bool.and_eq_true_iff.2 ⟨hl, hu⟩) _

variable {k : Qp} (hk : s.findQp p.val qpn = some k) (ho : s.outstanding k ≠ 0)
include hk ho

/-- ROCE_RETRY_TIMEOUT while retries are left sends what is outstanding again (R388). -/
theorem exec_roceRetryTimeout (hr : k.tries < k.retries) :
    exec (.roceRetryTimeout p qpn) s =
      .next (((s.addReg (pRCE p.val) 0x138 1).transmit p.val (s.outstanding k)).mapQp p.val qpn
        (fun k => { k with tries := k.tries + 1 })).settle := by
  change execRoceRetryTimeout p qpn s = _
  rw [execRoceRetryTimeout, hk]
  exact occurs_of (by simp [hl, State.whole_of_usable hu hk, ho, hr]) _

/-- QP_ERR once the retries are spent breaks the QP (R388). -/
theorem exec_qpErr (hr : k.tries = k.retries) :
    exec (.qpErr p qpn) s = .next ((s.breakQp p.val qpn).raise (pRCE p.val) 0).progress.settle := by
  change execQpErr p qpn s = _
  rw [execQpErr, hk]
  exact happens_of (by simp [hl, State.whole_of_usable hu hk, ho, hr]) _

end Live

theorem exec_ethLinkUp {m : Fin 6} (he : s.enabled (pETH p.val) = true) (hl : s.live = true) (hd : s.ethLink p.val % 4 ≠ 2)
    (hm : s.modeOk p.val m.val = true) :
    exec (.ethLinkUp p m) s =
      .next ((s.setReg (pETH p.val) 0x108 (BitVec.ofNat 64 (m.val * 16 + 2))).raise (pETH p.val) 0).progress.settle :=
  happens_of (by simp [he, hl, hd, hm]) _

theorem exec_ethLinkDown (he : s.enabled (pETH p.val) = true) (hup : s.ethLink p.val % 4 = 2) :
    exec (.ethLinkDown p) s = .next ((s.setReg (pETH p.val) 0x108 1).raise (pETH p.val) 1).progress.settle :=
  happens_of (by simp [he, hup]) _

end Port

/-- Settles O43, row by row. -/
theorem ethernetRows : Obligations.EthernetRows :=
  ⟨fun _ _ _ hs hu => ⟨fun _ _ _ => ⟨fun _ _ => exec_rdmaWrite_allowed hs hu, exec_rdmaWrite_refused hs hu⟩,
      fun _ _ _ => exec_rdmaRead hs hu, exec_sendReject hs hu, exec_rdmaAtomicReject hs hu,
      fun _ _ => exec_rdmaResponse hs hu⟩,
    fun _ _ _ => ⟨fun ht => ⟨fun hs _ _ hq => ⟨exec_cmRequest_accepted hs hq, exec_cmRequest_rejected hs hq⟩,
        fun hs hu => ⟨exec_cnp hs hu, exec_ecnMark hs hu⟩,
        exec_pfcPause ht, exec_ethFcsErr_fcs ht, exec_ethFcsErr_fec ht⟩,
      fun hl hu => ⟨exec_rateRecover hl hu, fun _ hk ho => ⟨exec_roceRetryTimeout hl hu hk ho, exec_qpErr hl hu hk ho⟩⟩,
      fun _ => exec_ethLinkUp, exec_ethLinkDown⟩⟩

end Sys2Proof.Machine
end

section
/-! SUPPORT. The proofs of the statements about bring-up: the canonical form after reset, the resets, the straps, the stages and
their failures (R411 to R427), and the ROM's recovery (R482). -/

namespace Sys2Proof.Machine

/-! ## The state after reset (R411) -/

/-- After reset every table is empty, so putting them in canonical form changes nothing. -/
theorem State.settle_reset : State.reset.settle = State.reset := rfl

/-- Settles O2: the state after reset is one put in canonical form, its own. -/
theorem resetIsCanonical : Obligations.ResetIsCanonical := by
  unfold Obligations.ResetIsCanonical
  rw [← State.settle_reset]
  exact inv_settle State.reset

/-! ## Resets and straps (R411, R412) -/

section Boot

variable {s : State}

/-- POWER_GOOD of a package whose standby island is supplied is a power-on reset. -/
theorem exec_powerGood (hp : s.board.pwrgood = false) (hv : s.board.vstby = true) :
    exec .powerGood s = .next (s.coldReset 0).settle :=
  occurs_of (by rw [hp, hv]; rfl) _

theorem exec_resetN (hp : s.board.pwrgood = true) : exec .resetN s = .next (s.coldReset 1).settle := occurs_of hp _

/-- The straps are in RTR.STRAPS and CFE.BOOT, and are not sampled again before the next cold reset (R412). -/
def State.withStraps (s : State) (x y z : Fin 32) (prof : Fin 8) (boot : Fin 4) : State :=
  let t := (s.setReg (pRTR 0) 0x100 (BitVec.ofNat 64 (z.val + 32 * y.val + 1024 * x.val + 65536 * prof.val))).setRf pCFE 0x200 17 16
    boot.val
  { t with boot := { t.boot with strapped := true } }

/-- Sampled straps leave the MSC in the ROM in modes 2 and 3 (R412). -/
theorem exec_strapSample {x y z : Fin 32} {prof : Fin 8} {boot : Fin 4} (hp : s.board.pwrgood = true) (hs : s.stage = 0)
    (hb : s.boot.strapped = false) :
    let t := s.withStraps x y z prof boot
    exec (.strapSample x y z prof boot) s = .next (if boot.val = 2 then t.enterRecovery
      else if boot.val = 3 then ({ t with boot := { t.boot with
        mscUp := false
        recovery := false } } : State).alert else t).settle :=
  occurs_of (by simp [hp, hs, hb]) _

/-! ## The stages (R413, R415) -/

/-- S1 is reached once the straps are sampled and the MSC firmware runs. -/
theorem exec_stageS1 {ms : Nat} (hp : s.board.pwrgood = true) (hs : s.stage = 0) (hb : s.boot.strapped = true)
    (hm : s.boot.mscUp = true) (hms : ms < 65536) (ht : s.inTime ms 150 = true) :
    exec (.stageS1 ms) s = .next (s.setStage 1 ms).firmwareCheck.settle :=
  occurs_of (by simp [hp, hs, hb, hm, hms, ht]) _

/-- S2 is reached from S1 once the first group of crossings is aligned, on a D0 that can be selected. -/
theorem exec_stageS2 {ms : Nat} (hp : s.powered = true) (hs : s.stage = 1) (hf : s.bootFail = 0)
    (ha : ∀ x ∈ firstXings, x ∈ s.boot.aligned) (hlo : s.rf pCFE 0x208 15 0 ≤ ms) (hms : ms < 65536)
    (ht : s.inTime ms (if 2 ≤ s.rf pCFE 0x200 26 24 then 400 else 550) = true) (hsel : s.selectable 0 = true) :
    exec (.stageS2 ms false) s = .next (s.enterS2 ms).settle := by
  change execStageS2 ms false s = _
  simp only [execStageS2, hsel, Bool.false_eq_true, if_false, if_true]
  exact occurs_of (by simpa [hp, hs, hf, hlo, hms, ht] using ha) _

/-- S3 is reached from S2 once every crossing is aligned, where D1 to D3 can be selected. -/
theorem exec_stageS3 {ms : Nat} (hp : s.powered = true) (hm : s.mayFinish = true) (hd : s.badDie = none)
    (ha : ∀ x ∈ allXings, x ∈ s.boot.aligned) (hlo : s.rf pCFE 0x208 31 16 ≤ ms) (hms : ms < 65536)
    (ht : s.inTime ms (if 2 ≤ s.rf pCFE 0x200 26 24 then 4500 else 5000) = true) :
    exec (.stageS3 ms none) s = .next (s.enterS3 ms).settle := by
  change execStageS3 ms none s = _
  simp only [execStageS3, hd]
  exact occurs_of (by simpa [hp, hm, hlo, hms, ht] using ha) _

/-! ## Failures of bring-up (R424) -/

/-- An island other than C0 of D0 that does not reach its voltage leaves the package at S2. -/
theorem State.failIvr_island {i : Nat} (hp : s.powered = true) (hs : s.stage = 2) (hf : s.bootFail = 0) (hi : i ≠ 0)
    (hu : s.unsettled i = true) :
    s.failIvr i = .next (s.failBoot 2 6 (if i < 32 then i / 8 else i - 32) (if i < 32 then i % 8 else 0)).settle := by
  simp only [State.failIvr, if_neg hi, decide_eq_true_eq]
  exact occurs_of (by simp [hp, hs, hf, hu]) _

theorem exec_stageS3_noVolt {ms : Nat} {i : Fin 36} (hp : s.powered = true) (hs : s.stage = 2) (hf : s.bootFail = 0) (hi : i.val ≠ 0)
    (hu : s.unsettled i.val = true) :
    exec (.stageS3 ms (some i)) s = .next (s.failBoot 2 6 (if i.val < 32 then i.val / 8 else i.val - 32)
      (if i.val < 32 then i.val % 8 else 0)).settle :=
  State.failIvr_island hp hs hf hi hu

theorem exec_ucieTrainTimeout (h : s.training = true) (l : UcieId) :
    exec (.ucieTrainTimeout l) s =
      .next (s.failBoot 2 3 (if l.val = 1 then 2 else if l.val = 3 then 1 else 0) l.val).settle :=
  occurs_of h _

theorem exec_hbmTrainTimeout (h : s.training = true) (i : StackId) :
    exec (.hbmTrainTimeout i) s = .next (s.failBoot 2 4 (i.val / 5) i.val).settle :=
  occurs_of h _

/-! ## Recovery (R482) -/

/-- The bytes of a datagram stand in what recovery has received, at the datagram's offset. -/
def State.receiveImage (s : State) (off : Nat) (d : List Byte) : State :=
  { s with boot := { s.boot with recv :=
    (d.foldl (fun (acc : Tab Byte × Nat) (b : Byte) => (Tab.put acc.1 acc.2 b, acc.2 + 1)) (s.boot.recv, off)).1 } }

section Recovery

variable (hr : s.boot.recovery = true)
include hr

/-- A datagram of no bytes ends the image. -/
theorem exec_recoveryDatagram_end : exec (.recoveryDatagram 0 []) s = .next s.recoverNow.settle := occurs_of hr _

theorem exec_recoveryDatagram_data {off : Nat} {d : List Byte} (hoff : off < 2 ^ 32) (hlo : 8 ≤ d.length) (hhi : d.length ≤ 1024) :
    exec (.recoveryDatagram off d) s = .next (s.receiveImage off d).settle := by
  change execRecoveryDatagram off d s = _
  have hd : d ≠ [] := List.ne_nil_of_length_pos (Nat.lt_of_lt_of_le (by decide) hlo)
  rw [execRecoveryDatagram, wellFormed_of (by rw [decide_eq_true hoff, decide_eq_true ⟨hlo, hhi⟩]; simp), if_neg hd]
  exact occurs_of hr _

end Recovery

/-! ## Writes of CFE.BOOT_CTL and CFE.CORE_RESET (R416, R426, R427) -/

theorem State.goWrite_of_hold (hm : s.bootMode = 1) (hs : s.stage = 2) (hj : s.job = 0) :
    s.goWrite = (cOK, s.setRf pCFE 0x200 8 8 1) :=
  if_neg (by simp [hm, hs, hj])

theorem State.coreResetWrite_of_idle {n : Nat} (hn : n ≤ 143) (hb : s.jobBusy = false) (hj : s.job ≠ 5)
    (hst : s.hcq.starting = none) (hc : s.coreServed n = true) : s.coreResetWrite n = (cOK, s.coreResetNow n) := by
  rw [State.coreResetWrite, if_neg (Nat.not_lt.2 hn), if_neg (by simp [hb, hj, hst]), if_neg (by simp [hc])]

section Write

variable {src : Src} (h : s.reaches src = true)
include h

/-- GO in the hold mode lets bring-up finish (R416). -/
theorem exec_bootGo (hp : s.pageCode pCFE 0x210 = none) (hm : s.bootMode = 1) (hs : s.stage = 2) (hj : s.job = 0) :
    exec (.bootGo src) s = .next (s.setRf pCFE 0x200 8 8 1).progress.settle := by
  change s.serveRow pCFE 0x210 src s.goWrite = _
  rw [State.goWrite_of_hold hm hs hj, serveRow_accepted h hp]

/-- A WARM that carries its confirmation, and no GO, resets the package (R426). -/
theorem exec_warm (hp : s.pageCode pCFE 0x210 = none) :
    exec (.warm 0xA5 false src) s = .next (s.warmReset 2).progress.settle :=
  serveRow_accepted h hp

/-- A core in service of a package without a job is reset (R427). -/
theorem exec_coreReset {c : Byte} (hp : s.pageCode pCFE 0x218 = none) (hn : c.toNat ≤ 143) (hb : s.jobBusy = false) (hj : s.job ≠ 5)
    (hst : s.hcq.starting = none) (hc : s.coreServed c.toNat = true) :
    exec (.coreReset c src) s = .next (s.coreResetNow c.toNat).progress.settle := by
  change s.serveRow pCFE 0x218 src (s.coreResetWrite c.toNat) = _
  rw [State.coreResetWrite_of_idle hn hb hj hst hc, serveRow_accepted h hp]

end Write

end Boot

/-- Settles O52, row by row. Which die of a UCIe link fails, and that a stage names the island that misses its voltage, are entry 38
of the log; the rows of recovery are R482. -/
theorem bringupRows : Obligations.BringupRows :=
  ⟨fun _ => ⟨exec_powerGood, exec_resetN, fun _ _ _ _ _ => exec_strapSample, fun _ => exec_stageS1, fun _ => exec_stageS2,
      fun _ => exec_stageS3, fun _ _ => exec_stageS3_noVolt, fun ht => ⟨exec_ucieTrainTimeout ht, exec_hbmTrainTimeout ht⟩⟩,
    fun _ _ => ⟨exec_recoveryDatagram_end, fun hr _ _ hoff hlo hhi => ⟨_, exec_recoveryDatagram_data hr hoff hlo hhi, rfl⟩,
      fun h hp => ⟨exec_bootGo h hp, exec_warm h hp⟩,
      fun h hp _ hn hb hj hst hc => exec_coreReset h hp hn hb hj hst hc⟩⟩

end Sys2Proof.Machine
end

section
/-! SUPPORT. The proof that a frozen package stands still (R466): how the shared operations answer in one, and what that leaves of
each command that takes place only while the clockless stages run. -/

namespace Sys2Proof.Machine

/-- An answer that holds no next state. -/
def Stalls (r : Res) : Prop := ∀ t, r ≠ .next t

/-! ## Ways of answering -/

theorem Stalls.fault (f : Fault) : Stalls (.fault f) := fun _ h => by cases h

theorem Stalls.occurs {p : Bool} (h : p = false) (s : State) : Stalls (occurs p s) := fun _ e => by
  rw [(occurs_next.1 e).1] at h
  cases h

theorem Stalls.happens {p : Bool} (h : p = false) (s : State) : Stalls (happens p s) := fun _ e => by
  rw [(happens_next.1 e).1] at h
  cases h

theorem Stalls.wellFormed {r : Res} (p : Bool) (h : Stalls r) : Stalls (wellFormed p r) :=
  fun t e => h t (wellFormed_next.1 e).2

theorem Stalls.ite {c : Prop} [Decidable c] {a b : Res} (ha : Stalls a) (hb : Stalls b) : Stalls (if c then a else b) := by
  split <;> assumption

section Frozen

variable {s : State} (hl : s.live = false)
include hl

/-! ## The operations that the rows share -/

theorem State.runs_of_frozen (n x : Nat) : s.runs n x = false :=
  Bool.eq_false_iff.2 fun h => by rw [State.live_of_runs h] at hl; cases hl

/-- No instruction is at the head of a class queue and may be released. -/
theorem State.ready_of_frozen (n x cls : Nat) : s.ready n x cls = none := by
  unfold State.ready
  split
  · rfl
  · rw [State.runs_of_frozen hl, Bool.false_and, if_neg Bool.false_ne_true]

theorem Stalls.issueGen (i : Issue) (cls : Nat) (bad : Option (Ins → State → State)) (lines : List Nat) :
    Stalls (s.issueGen i cls bad lines) := by
  have h : s.canDecode i.core.val i.ctx.val cls = false := by rw [State.canDecode, State.runs_of_frozen hl, Bool.false_and]
  dsimp only [State.issueGen]
  rw [h]
  exact .fault _

theorem Stalls.issue (i : Issue) (cls unit fcls : Nat) (bad : Option Refuse) (lines : List Nat) :
    Stalls (s.issue i cls unit fcls bad lines) := .issueGen hl _ _ _ _

theorem Stalls.issueTxn (own : Nat) (lines : List Nat) (i : Issue) : Stalls (s.issueTxn own lines i) :=
  .wellFormed _ (.issue hl _ _ _ _ _ _)

theorem Stalls.issueSync (own : Nat) (i : Issue) : Stalls (s.issueSync own i) := .wellFormed _ (.issue hl _ _ _ _ _ _)

theorem Stalls.issueColl (own : Nat) (i : Issue) : Stalls (s.issueColl own i) := .wellFormed _ (.issue hl _ _ _ _ _ _)

theorem Stalls.issueDma (own : Nat) (i : Issue) : Stalls (s.issueDma own i) := .wellFormed _ (.issue hl _ _ _ _ _ _)

theorem Stalls.issueQnt (own : Nat) (i : Issue) : Stalls (s.issueQnt own i) := .wellFormed _ (.issueGen hl _ _ _ _)

theorem Stalls.issueVec (own : Nat) (i : Issue) : Stalls (s.issueVec own i) := .wellFormed _ (.issueGen hl _ _ _ _)

theorem Stalls.decodeAccess (n x : Nat) (f : State → Res) : Stalls (s.decodeAccess n x f) := by
  rw [State.decodeAccess, State.runs_of_frozen hl]
  exact .fault _

theorem Stalls.servePacket (c : Instr) (p : Packet) (a n : Nat) (cls : Option Nat) (now : State → Option State) :
    Stalls (s.servePacket c p a n cls now) := by
  dsimp only [State.servePacket]
  split
  · exact .fault _
  · exact .happens hl _

theorem Stalls.request (by_ : Requester) (c : Instr) (a n : Nat) (cls : Option Nat) (now : Option State) :
    Stalls (s.request by_ c a n cls now) := by
  unfold State.request
  refine .ite ?_ ?_ <;> split
  · exact .fault _
  · exact .happens hl _
  · exact .fault _
  · exact .happens (by rw [hl, Bool.false_and]) _

theorem Stalls.runCmd (q op : Nat) (checks : Cmd → List Check) (states : List Nat) (eff : Cmd → State → State) :
    Stalls (s.runCmd q op checks states eff) := by
  unfold State.runCmd
  split
  · exact .fault _
  · exact .happens (by simp only [hl, Bool.false_and]) _

/-! ## Rows that the state enables in several ways -/

theorem Stalls.wake (w : WakeMsg) : Stalls (execWake w s) := by
  refine .ite (.happens hl _) ?_
  split
  · exact .fault _
  · exact .happens hl _

theorem Stalls.runEnd (core : CoreId) (ctx : CtxId) : Stalls (execRunEnd core ctx s) := by
  dsimp only [execRunEnd]
  split
  · exact .fault _
  · split
    · exact .happens hl _
    · exact .happens hl _

theorem Stalls.poisonedLine (core : CoreId) (ctx : CtxId) (line : Fin 65536) : Stalls (execPoisonedLine core ctx line s) := by
  dsimp only [execPoisonedLine]
  split
  · exact .happens hl _
  · exact .happens hl _

theorem Stalls.qntComplete (core : CoreId) : Stalls (execQntComplete core s) := by
  dsimp only [execQntComplete]
  split
  · exact .fault _
  · refine .ite (.happens (by rw [hl, Bool.false_and]) _) ?_
    split
    · exact .fault _
    · refine .ite (.fault _) ?_
      split
      · exact .happens hl _
      · exact .happens hl _

theorem Stalls.vecComplete (core : CoreId) : Stalls (execVecComplete core s) := by
  dsimp only [execVecComplete]
  split
  · exact .fault _
  · refine .ite (.fault _) ?_
    split
    · exact .happens hl _
    · exact .happens hl _

theorem Stalls.taggedWrite (core : CoreId) (ctx : CtxId) (addr : BitVec 48) (data : List Byte) :
    Stalls (execTaggedWrite core ctx addr data s) := by
  refine .wellFormed _ ?_
  split
  · exact .fault _
  · split
    · exact .fault _
    · exact .happens hl _

theorem Stalls.retrainTrained (stack : StackId) (us : Nat) : Stalls (execRetrainTrained stack us s) := by
  dsimp only [execRetrainTrained]
  split
  · exact .fault _
  · exact .wellFormed _ (.happens (by rw [hl, Bool.false_and]) _)

theorem Stalls.collectiveStart (die : DieId) (axis : AxisId) : Stalls (execCollectiveStart die axis s) := by
  dsimp only [execCollectiveStart]
  split
  · exact .happens hl _
  · exact .happens (by rw [hl, Bool.false_and]) _

theorem Stalls.collectiveComplete (die : DieId) (axis : AxisId) : Stalls (execCollectiveComplete die axis s) := by
  have h : (if s.live = true then s.collPump else s) = s := if_neg (Bool.eq_false_iff.1 hl)
  dsimp only [execCollectiveComplete]
  rw [h]
  split
  · exact .fault _
  · exact .happens (by rw [hl, Bool.false_and]) _

theorem Stalls.handshakeTimeout (u : HsUnit) : Stalls (execHandshakeTimeout u s) := by
  cases u with
  | core n => exact .happens (by rw [hl, Bool.false_and]) _
  | fabric die cl => exact .happens (by rw [hl, Bool.false_and]) _

/-! ## Every command of the clockless stages -/

/-- In a frozen package no command of the clockless stages answers a next state. -/
theorem Stalls.exec {c : Instr} (hc : Safety.Clocked c = true) : Stalls (exec c s) := by
  cases c with
  | tsig | twait | pput | ptake | sown | sdrop => exact .issueSync hl _ _
  | vadd | vsub | vmul | vfma | vdiv | vmax | vmin | vconv | vexp | vrcp | vrsq | vlog | vrsum | vrdot | vrmax | vrmin | lutb | vdrain
  | vopt | vdice =>
    exact .issueVec hl _ _
  | quant | qdrain => exact .issueQnt hl _ _
  | dcopy | datom => exact .issueDma hl _ _
  | txb i => exact .issueTxn (s := s.noteStatus i.core.val i.ctx.val i.desc) hl _ _ _
  | txo | txc | txa | txe => exact .issueTxn hl _ _ _
  | allreduce | reducescatter | allgather | broadcast => exact .issueColl hl _ _
  | matrixInstruction => exact .wellFormed _ (.issueGen hl _ _ _ _)
  | runRelease | qntRelease | vecRelease =>
    dsimp only [Machine.exec, execRunRelease, execQntRelease, execVecRelease]
    rw [State.ready_of_frozen hl]
    exact .fault _
  | dmaLineRequest =>
    dsimp only [Machine.exec, execDmaLineRequest]
    rw [hl]
    exact .fault _
  | halt =>
    dsimp only [Machine.exec, execHalt]
    exact .decodeAccess hl _ _ _
  | programLoad => exact .wellFormed _ (.ite (.fault _) (.decodeAccess hl _ _ _))
  | programStore => exact .wellFormed _ (.decodeAccess hl _ _ _)
  | nop | negotiate | unload | start | stop | preempt | resume | stepCommit | attest =>
    dsimp only [Machine.exec, execNop, execNegotiate, execUnload, execStart, execStop, execPreempt, execResume, execStepCommit,
      execAttest]
    exact .runCmd hl _ _ _ _ _
  | load | xfer | snapshot => exact .ite (.runCmd hl _ _ _ _ _) (.fault _)
  | wr | rd | aop =>
    dsimp only [Machine.exec, execWr, execRd, execAop]
    exact .wellFormed _ (.servePacket hl _ _ _ _ _ _)
  | memoryWrite | memoryAtomic =>
    dsimp only [Machine.exec, execMemoryWrite, execMemoryAtomic]
    exact .wellFormed _ (.request hl _ _ _ _ _ _)
  | memoryRead =>
    dsimp only [Machine.exec, execMemoryRead]
    exact .wellFormed _ (.ite (.request hl _ _ _ _ _ _) (.fault _))
  | sync | ack | nak => exact .wellFormed _ (.happens hl _)
  | coll | paceWindow => exact .wellFormed _ (.happens (by simp only [hl, Bool.false_and]) _)
  | lendOffer | envHoldExpiry | cancel | replayTimeout | datapathRelease | rateRecover =>
    exact .occurs (by simp only [hl, Bool.false_and]) _
  | severityPoll | phyDriftEval => exact .happens hl _
  | scrubRead | retrainForced | fencedRetry | verdictReductionComplete | bar | barTimeout | issueParity | sequencerWatchdog =>
    exact .happens (by simp only [hl, Bool.false_and]) _
  | ethLinkUp => exact .happens (by simp only [hl, Bool.false_and, Bool.and_false]) _
  | commandFetch => exact .happens (by simp only [State.mayFetch, hl, Bool.false_and]) _
  | startTick port =>
    cases port with
    | none => exact .occurs (by simp only [hl, Bool.false_and]) _
    | some p => cases hc
  | watchRequest | engineSignal | roceRetryTimeout =>
    dsimp only [Machine.exec, execWatchRequest, execEngineSignal, execRoceRetryTimeout]
    split
    · exact .fault _
    · exact .occurs (by simp only [hl, Bool.false_and]) _
  | watchTimeout | retrainHoldTimeout | retireDone | commitWindowClose | collectiveTimeout | stepLogAck | barrierRelease | qpErr
  | recordWriteAck | stationaryUnpin | taggedLineWriteback | dmaComplete | xferComplete | pinRelease =>
    dsimp only [Machine.exec, execWatchTimeout, execRetrainHoldTimeout, execRetireDone, execCommitWindowClose,
      execCollectiveTimeout, execStepLogAck, execBarrierRelease, execQpErr, execRecordWriteAck, execStationaryUnpin,
      execTaggedLineWriteback, execDmaComplete, execXferComplete, execPinRelease]
    split
    · exact .fault _
    · exact .happens (by simp only [hl, Bool.false_and]) _
  | rdata | aresp =>
    dsimp only [Machine.exec, execRdata, execAresp]
    refine .wellFormed _ ?_
    split
    · exact .fault _
    · exact .happens hl _
  | wake => exact .wake hl _
  | runEnd => exact .runEnd hl _ _
  | poisonedLine => exact .poisonedLine hl _ _ _
  | qntComplete => exact .qntComplete hl _
  | vecComplete => exact .vecComplete hl _
  | taggedWrite => exact .taggedWrite hl _ _ _ _
  | retrainTrained => exact .retrainTrained hl _ _
  | collectiveStart => exact .collectiveStart hl _ _
  | collectiveComplete => exact .collectiveComplete hl _ _
  | handshakeTimeout => exact .handshakeTimeout hl _
  | _ => cases hc

end Frozen

/-- Settles O57: each command of the clockless stages tests that the package runs, or goes through an operation that does. -/
theorem frozenPackageStandsStill : Obligations.FrozenPackageStandsStill := fun _ t _ hl hc => Stalls.exec hl hc t

end Sys2Proof.Machine
end

section
/-! SUPPORT. The proof of the statement about injection (R459): what an occurrence of a point leaves, one-shot and periodic. -/

namespace Sys2Proof.Machine

/-! ## FIRED, and the occurrences that have passed (R459) -/

/-- The occurrences that have passed since the write, or since the last that took effect, are `n`. -/
def State.passed (s : State) (page n : Nat) : State := { s with inj := Tab.set s.inj 0 page n }

/-- FIRED advances. -/
def State.fired (s : State) (page : Nat) : State := s.setRf page 0x050 47 16 (s.rf page 0x050 47 16 + 1)

section Advance

variable {s : State} (page : Nat)

theorem State.passed_inj (hs : Safety.Inv s) (n : Nat) : Tab.get (s.passed page n).inj 0 page = n := by
  obtain ⟨-, -, -, -, -, -, -, -, hinj, -⟩ := Tables.wf_parts hs.2.2
  exact Tab.get_set_self (Tab.wf_sorted hinj) 0 n page

/-- FIRED holds 32 bits. -/
theorem State.rf_setRf_fired (hs : Tab.sortedFrom 0 s.regs = true) (n : Nat) :
    (s.setRf page 0x050 47 16 n).rf page 0x050 47 16 = n % 2 ^ 32 := by
  rw [State.rf, State.reg_setRf_self hs, fld_setFld_self _ _ (by decide) (by decide)]

/-- ARMED stands when FIRED advances. -/
theorem State.fired_armed (hs : Tab.sortedFrom 0 s.regs = true) :
    bitAt ((s.fired page).reg page 0x050) 0 = bitAt (s.reg page 0x050) 0 := by
  rw [State.fired, State.reg_setRf_self hs, bitAt_fld, bitAt_fld,
    fld_setFld_below _ _ (by decide) (by decide) (by decide) (by decide)]

end Advance

/-! ## An occurrence of a point (R459) -/

/-- Where another point is chosen, or nothing is armed, an occurrence changes nothing. -/
theorem State.inject_elsewhere {s : State} {page pt : Nat}
    (h : s.rf page 0x048 15 8 ≠ pt ∨ bitAt (s.reg page 0x050) 0 = false) : s.inject page pt = (false, s) := by
  rcases h with hother | hunarmed
  · rw [State.inject]
    exact if_pos (.inr (.inl hother))
  · exact State.inject_of_unarmed hunarmed pt

/-- An armed periodic injection takes effect at every PERIOD-th occurrence of its point, and counts the others. -/
theorem State.inject_periodic {s : State} {page pt : Nat} (hm : 2 ≤ s.rf page 0x048 1 0) (hp : s.rf page 0x048 15 8 = pt)
    (ha : bitAt (s.reg page 0x050) 0 = true) :
    s.inject page pt = if (Tab.get s.inj 0 page + 1) % s.rf page 0x048 39 16 = 0 then (true, (s.passed page 0).fired page)
      else (false, s.passed page (Tab.get s.inj 0 page + 1)) := by
  have harmed : ¬(s.rf page 0x048 1 0 = 0 ∨ s.rf page 0x048 15 8 ≠ pt ∨ (!bitAt (s.reg page 0x050) 0) = true) := by
    simp [hp, ha]
    omega
  have hmode : s.rf page 0x048 1 0 ≠ 1 := by omega
  rw [State.inject]
  refine (if_neg harmed).trans ((if_neg hmode).trans ?_)
  have hperiod : s.rf page 0x048 39 16 = fld (s.reg page 0x048) 39 16 := rfl
  rw [hperiod]
  by_cases hfire : (Tab.get s.inj 0 page + 1) % fld (s.reg page 0x048) 39 16 = 0
  · simp only [hfire, decide_true, if_true]
    rfl
  · simp only [hfire, decide_false, if_false, Bool.false_eq_true]
    rfl

/-- Settles O11: the three kinds of occurrence, each by what `State.inject` leaves. -/
theorem injectionFires : Obligations.InjectionFires := by
  intro s page pt hs
  have hsorted : Tab.sortedFrom 0 s.regs = true := Regs.sorted_of_wf hs.1
  refine ⟨State.inject_elsewhere, fun hp ha hm => ?_, fun hp ha hm => ?_⟩
  · rw [State.inject_oneShot hm hp ha]
    exact ⟨rfl, State.rf_setRf_fired page (State.sorted_setRf hsorted ..) _⟩
  · dsimp only
    rw [State.inject_periodic hm hp ha]
    split
    case isTrue hfire =>
      exact ⟨(decide_eq_true hfire).symm, State.passed_inj page hs 0, State.rf_setRf_fired (s := s.passed page 0) page hsorted _,
        (State.fired_armed (s := s.passed page 0) page hsorted).trans ha⟩
    case isFalse hpass =>
      exact ⟨(decide_eq_false hpass).symm, State.passed_inj page hs _, rfl, ha⟩

end Sys2Proof.Machine
end

section
/-! SUPPORT. The proof of the statement about fatal errors (R454, R465, R475): SHT.STATE is written by freezes alone, and a fatal
error changes, of what neither an event nor a freeze changes, its count and ALERT_N. -/

namespace Sys2Proof.Machine

/-! ## SHT.STATE, which reporting an event leaves as it is (R65, R466) -/

section ShtState

variable (s : State)

theorem State.setReg_shtState {p o : Nat} (h : p ≠ pSHT ∨ o ≠ 0x110) (ho : o < 4096) (v : Word) :
    State.regAt pSHT 0x110 (s.setReg p o v) = State.regAt pSHT 0x110 s :=
  State.setReg_at s v (by
    rw [Ne, regKey_inj (by decide) ho]
    rintro ⟨rfl, rfl⟩
    exact h.elim (fun k => k rfl) (fun k => k rfl))

theorem State.setEvent_shtState (page bit : Nat) :
    State.regAt pSHT 0x110 (s.setEvent page bit) = State.regAt pSHT 0x110 s := by
  rw [State.setEvent, State.addReg, State.setReg_shtState _ (.inr (by decide)) (by decide),
    State.setReg_shtState _ (.inr (by decide)) (by decide)]

theorem State.setEvtSeq_shtState : State.regAt pSHT 0x110 s.setEvtSeq = State.regAt pSHT 0x110 s :=
  State.setReg_shtState s (.inl (by decide)) (by decide) _

theorem State.nextDseq_shtState : State.regAt pSHT 0x110 s.nextDseq.2 = State.regAt pSHT 0x110 s :=
  State.setReg_shtState s (.inl (by decide)) (by decide) _

theorem State.writeRec_shtState (r : Rec) : State.regAt pSHT 0x110 (s.writeRec r) = State.regAt pSHT 0x110 s := by
  simp only [State.writeRec, State.withHcq_at, State.setRf, State.addReg, State.transmit]
  rw [State.setReg_shtState _ (.inl (by decide)) (ringOff_lt _), State.setReg_shtState _ (.inr (by decide)) (by decide),
    State.emit_at, State.emit_at]

theorem State.flushFold_shtState (l : List Rec) (k : List Rec) :
    State.regAt pSHT 0x110 (l.foldl (fun (acc : State × List Rec) r =>
      if acc.1.ringReady r.queue then (acc.1.writeRec r, acc.2) else (acc.1, acc.2 ++ [r])) (s, k)).1 = State.regAt pSHT 0x110 s := by
  induction l generalizing s k with
  | nil => rfl
  | cons r l ih =>
    rw [List.foldl_cons]
    split
    · rw [ih, State.writeRec_shtState]
    · rw [ih]

theorem State.flushRecs_shtState : State.regAt pSHT 0x110 s.flushRecs = State.regAt pSHT 0x110 s := by
  simp only [State.flushRecs]
  rw [State.setEvtSeq_shtState, State.withHcq_at, State.flushFold_shtState]

theorem State.queueEvent_shtState (page bit : Nat) :
    State.regAt pSHT 0x110 (s.queueEvent page bit).1 = State.regAt pSHT 0x110 s := by
  simp only [State.queueEvent]
  split
  · rw [State.setEvtSeq_shtState, State.addReg, State.setReg_shtState _ (.inl (by decide)) (by decide), State.nextDseq_shtState]
  · rw [State.flushRecs_shtState, State.withHcq_at, State.nextDseq_shtState]

theorem State.reportEvent_shtState (page bit : Nat) :
    State.regAt pSHT 0x110 (s.reportEvent page bit) = State.regAt pSHT 0x110 s := by
  simp only [State.reportEvent]
  split_ifs <;> simp only [State.queueEvent_shtState, State.setEvent_shtState]

theorem State.raise0_shtState (page bit : Nat) : State.regAt pSHT 0x110 (s.raise0 page bit) = State.regAt pSHT 0x110 s := by
  rw [State.raise0, State.reportEvent_shtState, State.setEvent_shtState]

theorem State.setJob_shtState (j : Nat) : State.regAt pSHT 0x110 (s.setJob j) = State.regAt pSHT 0x110 s := by
  rw [State.setJob]
  split
  · rfl
  · rw [State.raise0_shtState, State.setRf, State.setReg_shtState _ (.inl (by decide)) (by decide)]

theorem State.selfRefresh_shtState : State.regAt pSHT 0x110 s.selfRefresh = State.regAt pSHT 0x110 s := by
  unfold State.selfRefresh
  refine foldl_keep (State.regAt pSHT 0x110) _ (fun t i => ?_) _ s
  dsimp only
  split
  · exact State.setStack_at ..
  · rw [State.setRf, State.setReg_shtState _ (.inr (by decide)) (by decide), State.setStack_at]

end ShtState

/-! ## What a freeze writes to SHT.STATE (R465, R467) -/

/-- The value of SHT.STATE in a freeze: its kind, trigger, scope, sequence number and origin. -/
def freezeWord (kind trig scope origin seq : Nat) : Word :=
  BitVec.ofNat 64 (2 ^ 63 + origin * 2 ^ 32 + seq * 2 ^ 16 + scope * 2 ^ 8 + trig * 2 ^ 4 + kind)

theorem freezeWord_kind {kind : Nat} (h : kind < 4) (trig scope origin seq : Nat) :
    fld (freezeWord kind trig scope origin seq) 1 0 = kind := by
  simp only [fld, freezeWord, BitVec.toNat_ofNat, Nat.shiftRight_zero]
  omega

/-- A freeze writes SHT.STATE whether or not the node was frozen before. -/
theorem State.freeze_shtState {s : State} (hs : Tab.sortedFrom 0 s.regs = true) (kind trig scope origin seq symKind : Nat)
    (inPort : Option Nat) :
    (s.freeze kind trig scope origin seq symKind inPort).reg pSHT 0x110 = freezeWord kind trig scope origin seq := by
  have symbols : ∀ (l : List Nat) (t : State),
      State.regAt pSHT 0x110 (l.foldl (fun s p => State.emit s (.frz p scope symKind origin seq)) t) = State.regAt pSHT 0x110 t :=
    fun l t => foldl_keep (State.regAt pSHT 0x110) _ (fun _ _ => State.emit_at _ _) l t
  have ramps : ∀ t : State, State.regAt pSHT 0x110 ((List.range 32).foldl (fun s i => State.rampDown s i (s.floorDemand i)) t) =
      State.regAt pSHT 0x110 t := fun t => foldl_keep (State.regAt pSHT 0x110) _ (fun _ _ => State.rampDown_at _ _ _) _ t
  have pin : ∀ t : State, State.regAt pSHT 0x110 ({ t with board := { t.board with shutter := true } } : State) =
      State.regAt pSHT 0x110 t := fun _ => State.withBoard_at _ _
  have latency : ∀ (t : State) (hi lo v : Nat), State.regAt pSHT 0x110 (t.setRf pSHT 0x128 hi lo v) = State.regAt pSHT 0x110 t :=
    fun t _ _ _ => State.setReg_shtState t (.inr (by decide)) (by decide) _
  have job : ∀ (t : State) (hi lo v : Nat), State.regAt pSHT 0x110 (t.setRf pCFE 0x100 hi lo v) = State.regAt pSHT 0x110 t :=
    fun t _ _ _ => State.setReg_shtState t (.inl (by decide)) (by decide) _
  have state : State.regAt pSHT 0x110 (s.setReg pSHT 0x110 (freezeWord kind trig scope origin seq)) =
      freezeWord kind trig scope origin seq := by
    rw [State.regAt_eq, State.reg_setReg_self hs]
  rw [← State.regAt_eq]
  unfold State.freeze
  dsimp only
  rw [freezeWord] at state ⊢
  split_ifs <;> simp only [State.raise0_shtState, State.setJob_shtState, latency, job, State.draw_at, State.selfRefresh_shtState,
    symbols, ramps, pin, state]

theorem State.freeze_frozen {s : State} (hs : Tab.sortedFrom 0 s.regs = true) {kind : Nat} (hk : kind < 4)
    (trig scope origin seq symKind : Nat) (inPort : Option Nat) :
    (s.freeze kind trig scope origin seq symKind inPort).frozen = kind := by
  rw [State.frozen, State.rf, State.freeze_shtState hs, freezeWord_kind hk]

/-! ## The parts of a fatal error (R454, R465, R475) -/

section Fatal

variable (s : State)

@[simp] theorem State.recordFatal_unraised (detector die unit : Nat) (inj : Bool) :
    (s.recordFatal detector die unit inj).unraised = s.unraised := by
  rw [State.recordFatal]
  split
  · rfl
  · rw [State.setReg_unraised]

@[simp] theorem State.fatalFreeze_unraised : s.fatalFreeze.unraised = s.unraised := by
  rw [State.fatalFreeze]
  split
  · rfl
  · rw [State.freezeHere_unraised]

theorem State.countFatal_unraised (detector die : Nat) : (s.countFatal detector die).unraised =
    { s.unraised with boot := { s.unraised.boot with fatals := s.unraised.boot.fatals + 1 } } := by
  have count : ({ s with boot := { s.boot with fatals := s.boot.fatals + 1 } } : State).unraised =
      { s.unraised with boot := { s.unraised.boot with fatals := s.unraised.boot.fatals + 1 } } := by
    unfold State.unraised
    rfl
  dsimp only [State.countFatal]
  split
  · exact count
  · rw [State.addReg_unraised, count]

theorem State.alert_unraised : s.alert.unraised = s.unraised.alert := by
  unfold State.unraised
  rfl

/-- Of what neither an event nor a freeze changes, a fatal error changes its count and ALERT_N. -/
theorem State.fatal_unraised (detector die unit : Nat) (inj : Bool) : (s.fatal detector die unit inj).unraised =
    ({ s.unraised with boot := { s.unraised.boot with fatals := s.unraised.boot.fatals + 1 } } : State).alert := by
  rw [State.fatal, State.fatalFreeze_unraised, State.alert_unraised, State.raise_unraised, State.countFatal_unraised,
    State.recordFatal_unraised]

end Fatal

/-- Whatever froze the node before, a fatal freeze leaves it in one. -/
theorem State.fatalFreeze_frozen {s : State} (hs : Tab.sortedFrom 0 s.regs = true) : s.fatalFreeze.frozen = 2 := by
  rw [State.fatalFreeze]
  split
  case isTrue h => exact eq_of_beq h
  case isFalse =>
    rw [State.freezeHere]
    refine State.freeze_frozen ?_ (by decide) ..
    exact hs

theorem State.recordFatal_fatal {s : State} (hs : Tab.sortedFrom 0 s.regs = true) (detector die unit : Nat) (inj : Bool) :
    (s.recordFatal detector die unit inj).reg (pRAS 0) 0x108 = if bitAt (s.reg (pRAS 0) 0x108) 63 then s.reg (pRAS 0) 0x108
      else BitVec.ofNat 64 (2 ^ 63 + b2n inj * 2 ^ 62 + detector * 2 ^ 40 + die * 2 ^ 32 + unit * 2 ^ 16) := by
  rw [State.recordFatal]
  split
  · rfl
  · rw [State.reg_setReg_self hs]

/-- The count on the die of the detector stands on that die's own page. -/
theorem State.countFatal_fatal (s : State) (detector die : Nat) :
    (s.countFatal detector die).reg (pRAS 0) 0x108 = s.reg (pRAS 0) 0x108 := by
  dsimp only [State.countFatal]
  split
  · rfl
  · rw [State.reg_addReg_ne _ _ (by rw [Ne, regKey_inj (by decide) (by decide), pRAS, pRAS]; omega)]
    rfl

theorem State.fatalFreeze_fatal (s : State) : s.fatalFreeze.reg (pRAS 0) 0x108 = s.reg (pRAS 0) 0x108 := by
  rw [State.fatalFreeze]
  split
  · rfl
  · exact State.freezeHere_reg (by decide) (by decide) ..

/-! ## The keys of the register table rise up to the freeze -/

section Sorted

variable {s : State} (hs : Tab.sortedFrom 0 s.regs = true)
include hs

theorem State.sorted_recordFatal (detector die unit : Nat) (inj : Bool) :
    Tab.sortedFrom 0 (s.recordFatal detector die unit inj).regs = true := by
  rw [State.recordFatal]
  split
  · exact hs
  · exact State.sorted_setReg hs ..

theorem State.sorted_countFatal (detector die : Nat) : Tab.sortedFrom 0 (s.countFatal detector die).regs = true := by
  dsimp only [State.countFatal]
  split
  · exact hs
  · exact State.sorted_setReg hs ..

theorem State.sorted_raise (page bit : Nat) : Tab.sortedFrom 0 (s.raise page bit).regs = true :=
  (State.QueuesStand.raise ⟨hs, rfl⟩ page bit).rising

end Sorted

/-- Settles O56: SHT.STATE holds what the last freeze wrote, and RAS.FATAL what the first fatal error wrote. That the job is FROZEN is
no conjunct of the statement. -/
theorem fatalErrorFreezes : Obligations.FatalErrorFreezes := by
  intro s detector die unit inj hs _ _ _ _ _ t
  have hsorted : Tab.sortedFrom 0 s.regs = true := Regs.sorted_of_wf hs.1
  have kept : t.unraised = ({ s.unraised with boot := { s.unraised.boot with fatals := s.unraised.boot.fatals + 1 } } : State).alert :=
    s.fatal_unraised detector die unit inj
  have hbefore :
      Tab.sortedFrom 0 (((s.recordFatal detector die unit inj).countFatal detector die).raise (pRAS 0) 0).alert.regs = true :=
    State.sorted_raise (State.sorted_countFatal (State.sorted_recordFatal hsorted ..) ..) ..
  refine ⟨State.fatalFreeze_frozen hbefore, ?_, ?_, ?_, ?_, ?_⟩
  · rw [← State.unraised_alert t, kept]
    rfl
  · rw [← State.unraised_mem t, kept, ← State.unraised_mem s]
    rfl
  · rw [← State.unraised_cores t, kept, ← State.unraised_cores s]
    rfl
  · rw [← State.unraised_boot t, kept, ← State.unraised_boot s]
    rfl
  · have alerted : ∀ u : State, u.alert.reg (pRAS 0) 0x108 = u.reg (pRAS 0) 0x108 := fun _ => rfl
    change (s.fatal detector die unit inj).reg _ _ = _
    rw [State.fatal, State.fatalFreeze_fatal, alerted, State.raise_keep (by decide) (by decide), State.countFatal_fatal,
      State.recordFatal_fatal hsorted]

end Sys2Proof.Machine
end

section
/-! SUPPORT. The proof of the statement about detected errors, freezes and resumes (R452 to R469, R473), row by row. -/

namespace Sys2Proof.Machine

section Detectors

variable {s : State}

/-! ## Detectors (R454, R456, R457, R462, R469) -/

theorem exec_handshakeTimeout_core (hl : s.live = true) {n : CoreId} (hc : s.coreServed n.val = true) :
    exec (.handshakeTimeout (.core n)) s = .next (s.coreFault n.val false).progress.settle :=
  happens_of (by rw [hl, hc]; rfl) _

theorem exec_issueParity (hl : s.live = true) {n : CoreId} (hc : s.coreServed n.val = true) :
    exec (.issueParity n) s = .next (s.coreFault n.val true).progress.settle :=
  happens_of (by rw [hl, hc]; rfl) _

theorem exec_handshakeTimeout_fabric (hl : s.live = true) (hs : 2 ≤ s.stage) (d : DieId) (cl : Fin 8) :
    exec (.handshakeTimeout (.fabric d cl)) s = .next (s.fabricFatal 1 d.val cl.val).progress.settle :=
  happens_of (by rw [hl, decide_eq_true hs]; rfl) _

/-- An image of the sequencer that is not in trial stands when the sequencer hangs (R491). -/
theorem State.revertKind_of_confirmed {kind : Nat} (h : (s.slotsOf kind).trial = false) : s.revertKind kind = s := by
  rw [State.revertKind]
  exact if_pos (by rw [h]; rfl)

/-- A detector that fires writes registers and takes draws; the images stand. -/
theorem State.injectTimed_sec (page pt : Nat) : (s.injectTimed page pt).2.sec = s.sec := by
  unfold State.injectTimed
  split
  · rfl
  · dsimp only
    split_ifs
    · rw [State.setRf_sec, State.setRf_sec]
    · rw [State.setRf_sec, State.draw_sec]
    · rfl
    · rw [State.draw_sec]

theorem exec_sequencerWatchdog (hl : s.live = true) (hs : 1 ≤ s.stage) (ht : s.sec.seqr.trial = false) :
    exec .sequencerWatchdog s =
      .next ((s.injectTimed (pRAS 0) 1).2.fatal 5 0 0 (s.injectTimed (pRAS 0) 1).1).progress.settle := by
  have htrial : (s.injectTimed (pRAS 0) 1).2.sec.seqr.trial = false := by rw [State.injectTimed_sec, ht]
  change execSequencerWatchdog s = _
  rw [execSequencerWatchdog]
  dsimp only
  rw [htrial, if_neg Bool.false_ne_true, State.revertKind_of_confirmed (kind := 2) htrial]
  exact happens_of (by rw [hl, decide_eq_true hs]; rfl) _

theorem exec_mscWdog (hv : s.board.vstby = true) (hm : s.boot.mscUp = true) (hs : 1 ≤ s.stage) :
    exec .mscWdog s = .next (((s.injectTimed (pRAS 0) 2).2.restartMsc 0).raise (pRAS 0) 5).progress.settle :=
  happens_of (by rw [hv, hm, decide_eq_true hs]; rfl) _

/-- The hold of a fatal freeze ends where FATAL_HOLD is not 0 and no Keyhole session is open. -/
theorem exec_fatalHoldExpiry (hf : s.frozen = 2) (hk : s.shut.session = none) (hh : s.rf (pRAS 0) 0x100 47 32 ≠ 0) :
    exec .fatalHoldExpiry s = .next (s.warmReset 3).settle :=
  occurs_of (by simp [hf, hk, hh]) _

theorem exec_retireCore {src : Src} (h : s.reaches src = true) (hp : s.pageCode (pRAS 0) 0x138 = none) {c : Byte}
    (hc : c.toNat ≤ 143) : exec (.retireCore c src) s = .next (s.addSpareSlot (s.slotOf c.toNat)).progress.settle := by
  change s.serveRow (pRAS 0) 0x138 src (s.retireCoreWrite c.toNat) = _
  rw [State.retireCoreWrite, if_neg (Nat.not_lt.2 hc), serveRow_accepted h hp]

section NotFatal

variable (hf : s.frozen ≠ 2)
include hf

theorem exec_fabricParity (hs : 2 ≤ s.stage) (d : DieId) (cl : Fin 8) :
    exec (.fabricParity d cl) s = .next (s.fabricFatal 2 d.val cl.val).progress.settle :=
  happens_of (by rw [bne_iff_ne.2 hf, decide_eq_true hs]; rfl) _

theorem exec_ucieRetryExhausted (hs : 3 ≤ s.stage) (l : UcieId) (far : Bool) :
    exec (.ucieRetryExhausted ⟨l, far⟩) s = .next (s.fabricFatal 3 (ucieDie l.val far) l.val).progress.settle :=
  happens_of (by rw [bne_iff_ne.2 hf, decide_eq_true hs]; rfl) _

theorem exec_crossingOverflow {d : DieId} {x : XingId} (ha : 13 * d.val + x.val ∈ s.boot.aligned) :
    exec (.crossingOverflow d x) s = .next (s.fabricFatal 4 d.val x.val).progress.settle :=
  happens_of (by rw [bne_iff_ne.2 hf, List.contains_iff_mem.2 ha]; rfl) _

end NotFatal

/-! ## Freezes and resumes (R465 to R467, R473) -/

theorem exec_shutterN (he : s.enabled pSHT = true) (hpin : bitAt (s.reg pSHT 0x100) 4 = true) (hl : s.live = true) :
    exec .shutterN s = .next (s.freezeHere 1 1 0).settle := by
  change execShutterN s = _
  rw [execShutterN, if_pos (by rw [he, hpin, hl]; rfl), State.done_eq]

theorem exec_freeze {src : Src} (h : s.reaches src = true) (hp : s.pageCode pSHT 0x108 = none) (he : s.enabled pSHT = true)
    (hl : s.live = true) : exec (.freeze src) s = .next (s.freezeHere 1 2 (s.rf pSHT 0x100 1 0)).progress.settle := by
  change s.serveRow pSHT 0x108 src s.freezeWrite = _
  rw [State.freezeWrite, if_neg (by simp [he]), if_pos hl, serveRow_accepted h hp]

theorem exec_frz {p : PortId} (hu : s.linkState p.val = 2) (sc k : Fin 3) (o : BitVec 15) (q : BitVec 16) :
    exec (.frz p sc k o q) s = .next (s.takeFrz p.val sc.val k.val o.toNat q.toNat).settle :=
  occurs_of (beq_iff_eq.2 hu) _

/-- A symbol of scope node is for its own node alone. -/
theorem State.takeFrz_node (p k o q : Nat) : s.takeFrz p 0 k o q = s := if_pos (.inl rfl)

/-- A running node that a symbol is for freezes. -/
theorem State.takeFrz_running (hl : s.live = true) {sc o : Nat} (hsc : sc = 2 ∨ (sc = 1 ∧ s.inSlice o = true)) (p k q : Nat) :
    s.takeFrz p sc k o q = s.freeze 1 5 sc o q k (some p) := by
  have hsame : s.sameFreeze o q = false := by simp [State.sameFreeze, hl]
  have hfrozen : s.frozen ≠ 2 := fun h => by simp [State.live, h] at hl
  rw [State.takeFrz, if_neg, if_neg hfrozen]
  rcases hsc with rfl | ⟨rfl, hin⟩
  · simp [hsame]
  · simp [hsame, hin]

theorem exec_res {p : PortId} {o : BitVec 15} {q : BitVec 16} (hu : s.linkState p.val = 2) (hf : s.frozen = 1)
    (hsame : s.sameFreeze o.toNat q.toNat = true) (low : Bool) :
    exec (.res p o q low) s = .next (s.resume low (some p.val)).2.progress.settle := by
  change execRes p o q low s = _
  rw [execRes, if_pos (by rw [hf, hsame]; rfl), happens_of (beq_iff_eq.2 hu)]

end Detectors

/-- Settles O55, row by row. A watchdog of a sequencer whose image is in trial is left out of the statement. -/
theorem errorAndFreezeRows : Obligations.ErrorAndFreezeRows :=
  ⟨fun _ => ⟨fun hl _ hc => ⟨exec_handshakeTimeout_core hl hc, exec_issueParity hl hc⟩, exec_handshakeTimeout_fabric,
      exec_fabricParity, exec_ucieRetryExhausted, fun hf _ _ => exec_crossingOverflow hf, exec_sequencerWatchdog, exec_mscWdog,
      exec_fatalHoldExpiry, fun _ _ h hp hc => exec_retireCore h hp hc⟩,
    fun s _ => ⟨exec_shutterN, exec_freeze, fun _ sc k o q hu => ⟨exec_frz hu sc k o q,
        fun hsc => hsc ▸ s.takeFrz_node ..,
        fun hl hsc => s.takeFrz_running hl (hsc.imp (congrArg Fin.val) (.imp_left (congrArg Fin.val))) ..⟩,
      fun _ _ _ hu hf hsame => exec_res hu hf hsame⟩⟩

end Sys2Proof.Machine
end

section
/-! SUPPORT. The proof of the statement about Keyhole (R470 to R473, R495), row by row: a request that does not come to the MSC has no
effect, one that comes is served or answered with its code. -/

namespace Sys2Proof.Machine

section Keyhole

variable {s : State} {r : KhReq}

theorem State.khTakes_of_jtag (hs : s.khServed = true) (hv : r.via = .jtag) : s.khTakes r = true := by rw [State.khTakes, hs, hv]; rfl

/-! ## Requests that do not come to the MSC (R470) -/

section Elsewhere

variable (h : s.khTakes r = false)
include h

/-- A row that asks first whether the request comes to the MSC. -/
theorem State.notTaken (a : Res) : (if !s.khTakes r then s.done else a) = .next s.settle :=
  if_pos (by rw [h]; rfl)

theorem exec_khOpen_elsewhere (hd : r.data.length = r.length) : exec (.khOpen r) s = .next s.settle :=
  (wellFormed_of (beq_iff_eq.2 hd) _).trans (s.notTaken h _)

theorem exec_khRead_elsewhere (hd : r.data = []) : exec (.khRead r) s = .next s.settle :=
  (wellFormed_of (beq_iff_eq.2 hd) _).trans (s.notTaken h _)

theorem exec_khWrite_elsewhere (hd : r.data.length = r.length) : exec (.khWrite r) s = .next s.settle :=
  (wellFormed_of (beq_iff_eq.2 hd) _).trans (s.notTaken h _)

theorem exec_khResume_elsewhere (low : Bool) : exec (.khResume r low) s = .next s.settle := s.notTaken h _

theorem exec_khReset_elsewhere : exec (.khReset r) s = .next s.settle := s.notTaken h _

theorem exec_khClose_elsewhere : exec (.khClose r) s = .next s.settle := s.notTaken h _

end Elsewhere

/-! ## Requests that come to the MSC (R471 to R473, R495) -/

section Taken

variable (h : s.khTakes r = true)
include h

/-- A row that asks first whether the request comes to the MSC goes on when it does. -/
theorem State.taken (a : Res) : (if !s.khTakes r then s.done else a) = a := if_neg (by rw [h]; decide)

/-- A request without a refusal has its effect, another is answered with its code. -/
theorem State.answered (c : Nat) (t u : State) :
    (if !s.khTakes r then s.done else if c = cOK then t.done else u.done) = .next (if c = cOK then t else u).settle := by
  rw [s.taken h]
  split <;> rw [State.done_eq]

theorem exec_khOpen (hd : r.data.length = r.length) : exec (.khOpen r) s =
    .next (if s.khOpenCode r = cOK then s.khOpenNow r else s.khStatus 1 (s.khOpenCode r) r).settle :=
  (wellFormed_of (beq_iff_eq.2 hd) _).trans (s.answered h ..)

theorem exec_khRead (hd : r.data = []) : exec (.khRead r) s =
    .next (if s.khReadCode r = cOK then s.khReadNow r else s.khStatus 2 (s.khReadCode r) r).settle :=
  (wellFormed_of (beq_iff_eq.2 hd) _).trans (s.answered h ..)

theorem exec_khWrite (hd : r.data.length = r.length) : exec (.khWrite r) s =
    .next (if s.khWriteCode r = cOK then (s.khWriteNow r).2.khStatus 3 (s.khWriteNow r).1 r
      else s.khStatus 3 (s.khWriteCode r) r).settle :=
  (wellFormed_of (beq_iff_eq.2 hd) _).trans (s.answered h ..)

section Plain

variable (hc : s.khPlainCode r = cOK)
include hc

/-- A debug freeze is resumed, or the resume refused while the pin stays low (R473). -/
theorem exec_khResume (hf : s.frozen = 1) (low : Bool) : exec (.khResume r low) s =
    .next (((s.resume low none).2.khStatus 4 (s.resume low none).1 r).progress).settle := by
  change execKhResume r low s = _
  rw [execKhResume, s.taken h, if_neg (not_not.2 hc), if_neg (not_not.2 hf), State.advance_eq]

theorem exec_khReset : exec (.khReset r) s = .next ((s.khStatus 5 cOK r).warmReset 3).settle := by
  change execKhReset r s = _
  rw [execKhReset, s.taken h, if_neg (not_not.2 hc), State.done_eq]

theorem exec_khClose : exec (.khClose r) s =
    .next (({ s with shut := { s.shut with session := none } } : State).khStatus 6 cOK r).settle := by
  change execKhClose r s = _
  rw [execKhClose, s.taken h, if_neg (not_not.2 hc), State.done_eq]

end Plain

/-- A session without requests ends while the MSC serves, as it does where it takes one. -/
theorem exec_khSessionTimeout (ho : s.shut.session.isSome = true) : exec .khSessionTimeout s =
    .next ({ s with shut := { s.shut with session := none } } : State).settle := by
  rw [State.khTakes, Bool.and_eq_true] at h
  exact occurs_of (by rw [ho, h.1]; rfl) _

end Taken

end Keyhole

/-- Settles O58, row by row. What a KH_RESUME, KH_RESET or KH_CLOSE that a condition refuses is answered is left out of the statement. -/
theorem keyholeRows : Obligations.KeyholeRows :=
  ⟨fun _ _ => State.khTakes_of_jtag,
    fun _ _ h hd => ⟨exec_khOpen_elsewhere h hd, exec_khWrite_elsewhere h hd, exec_khReset_elsewhere h, exec_khClose_elsewhere h,
      exec_khResume_elsewhere h, exec_khRead_elsewhere h⟩,
    fun _ _ h => ⟨exec_khOpen h, exec_khRead h, exec_khWrite h,
      fun hc => ⟨exec_khResume h hc, exec_khReset h hc, exec_khClose h hc⟩, exec_khSessionTimeout h⟩⟩

end Sys2Proof.Machine
end

section
/-! SUPPORT. The proof of the statement about signed objects and telemetry (R489 to R493, R496, R510), row by row. -/

namespace Sys2Proof.Machine

section Security

variable {s : State}

/-! ## Staging (R489, R496) -/

/-- A request of SEC.STAGE that no condition refuses makes SEC busy. -/
theorem State.stageWrite_of_idle {j : StageJob} (hk : 1 ≤ j.kind) (hk' : j.kind ≤ 5) (hb : 8 ≤ j.bytes) (hb' : j.bytes ≤ 2048)
    (hm : j.bytes % 8 = 0) (hn : s.sec.busy = none) (ht : j.kind ≤ 3 → (s.slotsOf j.kind).trial = false) :
    s.stageWrite j = (cOK, ({ s with sec := { s.sec with busy := some j } } : State).setReg pSEC 0x118
      (BitVec.ofNat 64 (j.kind * 16 + 1))) := by
  have hgood : j.bad = false := by
    simp [StageJob.bad, hm]
    omega
  have hidle : ¬(s.sec.busy.isSome = true ∨ (j.kind ≤ 3 ∧ (s.slotsOf j.kind).trial = true)) := by
    rw [hn]
    rintro (h | ⟨hkind, htrial⟩)
    · cases h
    · rw [ht hkind] at htrial
      cases htrial
  rw [State.stageWrite, hgood, if_neg Bool.false_ne_true, if_neg hidle]

section Stage

variable {src : Src} (h : s.reaches src = true) (hp : s.pageCode pSEC 0x110 = none) {k : Fin 16} {c : BitVec 16} {n : BitVec 12}
  (hk : 1 ≤ k.val) (hk' : k.val ≤ 5) (hb : 8 ≤ n.toNat) (hb' : n.toNat ≤ 2048) (hm : n.toNat % 8 = 0) (hn : s.sec.busy = none)
  (ht : k.val ≤ 3 → (s.slotsOf k.val).trial = false)
include h hp hk hk' hb hb' hm hn ht

theorem exec_secStage : exec (.secStage k c n src) s = .next ((({ s with sec := { s.sec with
    busy := some ⟨k.val, c.toNat, n.toNat, true, false⟩ } } : State).setReg pSEC 0x118
    (BitVec.ofNat 64 (k.val * 16 + 1)))).progress.settle := by
  change s.serveRow pSEC 0x110 src (s.stageWrite ⟨k.val, c.toNat, n.toNat, true, false⟩) = _
  rw [State.stageWrite_of_idle hk hk' hb hb' hm hn ht, serveRow_accepted h hp]

theorem exec_secVerify (go : Bool) : exec (.secVerify k c n go src) s = .next ((({ s with sec := { s.sec with
    busy := some ⟨k.val, c.toNat, n.toNat, go, true⟩ } } : State).setReg pSEC 0x118
    (BitVec.ofNat 64 (k.val * 16 + 1)))).progress.settle := by
  change s.serveRow pSEC 0x110 src (s.stageWrite ⟨k.val, c.toNat, n.toNat, go, true⟩) = _
  rw [State.stageWrite_of_idle hk hk' hb hb' hm hn ht, serveRow_accepted h hp]

end Stage

/-- The request that is busy ends: its chunk is written, and it is verified where VERIFY is 1 (R489). -/
theorem exec_stageComplete {j : StageJob} (hm : s.boot.mscUp = true) (hb : s.sec.busy = some j) :
    let t : State := { s with sec := { s.sec with busy := none } }
    let t := if j.go then t.writeChunk j else t
    exec .stageComplete s =
      .next (if j.verify then t.endVerify j.kind else t.setReg pSEC 0x118 (BitVec.ofNat 64 (j.kind * 16))).settle := by
  change execStageComplete s = _
  rw [execStageComplete, hb]
  exact occurs_of hm _

/-! ## Activation and confirmation (R490, R491) -/

section Slots

variable {src : Src} (h : s.reaches src = true) {k : Fin 16} (hk : 1 ≤ k.val) (hk' : k.val ≤ 3)
include h hk hk'

theorem exec_activate (hp : s.pageCode pSEC 0x120 = none) (hl : s.live = true)
    (hv : (s.slotsOf k.val).valid (1 - (s.slotsOf k.val).active) = true) :
    exec (.activate k src) s = .next (s.activateSlot k.val).progress.settle := by
  change s.serveRow pSEC 0x120 src (s.activateWrite k.val) = _
  rw [State.activateWrite, if_neg (by omega), if_neg (by simp [hl]), if_neg (by omega), if_neg (by simp [hv]), serveRow_accepted h hp]

theorem exec_confirm (hp : s.pageCode pSEC 0x128 = none) (ht : (s.slotsOf k.val).trial = true) :
    exec (.confirm k src) s = .next (s.setSlotsOf k.val { s.slotsOf k.val with trial := false }).progress.settle := by
  change s.serveRow pSEC 0x128 src (s.confirmWrite k.val) = _
  rw [State.confirmWrite, if_neg (by omega), if_neg (by simp [ht]), serveRow_accepted h hp]

end Slots

/-! ## The rollback counter (R492) -/

/-- What a slot loses with VALID is neither its trial nor the rollback counter nor memory. -/
def State.trialAndRollback (s : State) : Bool × Nat × Mem := (s.sec.msc.trial, s.sec.rollback, s.mem)

theorem State.setValid_keeps (s : State) (kind slot : Nat) (v : Bool) :
    (s.setSlotsOf kind ((s.slotsOf kind).setValid slot v)).trialAndRollback = s.trialAndRollback := by
  simp only [State.trialAndRollback, State.setSlotsOf, State.slotsOf, Slots.setValid]
  split_ifs <;> rfl

theorem State.dropValid_keeps (s : State) (p : Manifest → Bool) : (s.dropValid p).trialAndRollback = s.trialAndRollback := by
  refine foldl_keep State.trialAndRollback _ (fun t e => ?_) _ s
  split
  · exact t.setValid_keeps e.1 e.2 false
  · rfl

/-- The state in which the rollback counter is raised to the MSC's active image, whose trial ends. -/
def State.rolledBack (s : State) : State :=
  let t := s.setSlotsOf 1 { s.sec.msc with trial := false }
  { t with sec := { t.sec with rollback := max t.sec.rollback (s.manifest 1 s.sec.msc.active).svn } }

/-- BURN: slots whose image is older than the counter lose VALID. -/
def State.burnt (s : State) : State := (s.rolledBack.dropValid (fun m => decide (m.svn < s.rolledBack.sec.rollback))).raise pSEC 5

theorem State.burnt_keeps (s : State) :
    s.burnt.trialAndRollback = (false, max s.sec.rollback (s.manifest 1 s.sec.msc.active).svn, s.mem) := by
  have raised : ∀ t : State, (t.raise pSEC 5).trialAndRollback = t.trialAndRollback := fun t => by
    rw [State.trialAndRollback, State.sec_of_unraised (t.raise_unraised pSEC 5), State.mem_of_unraised (t.raise_unraised pSEC 5)]
    rfl
  rw [State.burnt, raised, State.dropValid_keeps]
  rfl

theorem exec_burn {src : Src} (h : s.reaches src = true) (hp : s.pageCode pSEC 0x128 = none) {k : Fin 16} (ht : s.sec.msc.trial = true)
    (hk : k.val = 1) (hold : ∀ m ∈ s.activeMans, (s.manifest 1 s.sec.msc.active).svn ≤ m.svn) :
    exec (.burn k src) s = .next s.burnt.progress.settle := by
  have hnew : s.activeMans.any (fun m => decide (m.svn < (s.manifest 1 s.sec.msc.active).svn)) = false := by
    simpa using hold
  change s.serveRow pSEC 0x128 src (s.burnWrite k.val) = _
  rw [hk, State.burnWrite, if_neg (by decide), if_neg (by simp [ht])]
  dsimp only
  rw [hnew, if_neg Bool.false_ne_true, serveRow_accepted h hp]
  rfl

/-- A SMBus word of a package with VSTBY (R510). -/
theorem exec_smbusReadWord (hv : s.board.vstby = true) (cmd : Byte) :
    exec (.smbusReadWord cmd) s = .next (s.emit (.smbus (s.smbusWord cmd.toNat))).settle := by
  change execSmbusReadWord cmd s = _
  rw [execSmbusReadWord, if_pos hv, State.done_eq]

end Security

/-- Settles O59, row by row. The word of the SMBus is R510. -/
theorem securityRows : Obligations.SecurityRows := by
  intro s k src h hstage hactivate hconfirm
  refine ⟨fun c n hk hk' hb hb' hm hn ht => ⟨exec_secStage h hstage hk hk' hb hb' hm hn ht,
      exec_secVerify h hstage hk hk' hb hb' hm hn ht⟩, fun j => exec_stageComplete,
    fun hk hk' => ⟨exec_activate h hk hk' hactivate, exec_confirm h hk hk' hconfirm⟩, fun ht hk hold => ?_,
    fun cmd hv => exec_smbusReadWord hv cmd⟩
  obtain ⟨htrial, hrollback, hmem⟩ : s.burnt.sec.msc.trial = false ∧
      s.burnt.sec.rollback = max s.sec.rollback (s.manifest 1 s.sec.msc.active).svn ∧ s.burnt.mem = s.mem := by
    simpa only [State.trialAndRollback, Prod.mk.injEq] using s.burnt_keeps
  refine ⟨s.burnt, exec_burn h hconfirm ht hk hold, htrial, ?_, ?_, hmem⟩
  · rw [hrollback]
    exact Nat.le_max_left ..
  · rw [hrollback]
    exact Nat.le_max_right ..

end Sys2Proof.Machine
end

section
/-! SUPPORT. The proofs of the statements about power and heat (R432 to R446, R515): the rows of windows, samples, ramps and lending, and
those of a power stop. -/

namespace Sys2Proof.Machine

section Power

variable {s : State}

/-! ## Windows, samples, ramps and lending (R252, R434, R436, R441 to R443) -/

theorem exec_powerWindow (hp : s.board.pwrgood = true) (hs : 1 ≤ s.stage) {mv a w : Nat} (j : Nat) (hmv : mv < 65536) (ha : a < 65536)
    (hw : w < 65536) : exec (.powerWindow mv a w j) s = .next (s.window mv a w j).progress.settle :=
  (wellFormed_of (decide_eq_true ⟨hmv, ha, hw⟩) _).trans (happens_of (by rw [hp, decide_eq_true hs]; rfl) _)

theorem exec_thermalSample (hp : s.board.pwrgood = true) (hs : 1 ≤ s.stage) (d : DieId) {l : List Sensor} (hlen : l.length = 64)
    (hl : ∀ k ∈ l, -32768 ≤ k.temp ∧ k.temp ≤ 32767) : exec (.thermalSample d l) s = .next (s.sample d.val l).progress.settle :=
  (wellFormed_of (by simpa [hlen] using hl) _).trans (happens_of (by rw [hp, decide_eq_true hs]; rfl) _)

theorem exec_rampTokenGrant {i : IslandId} (hf : s.firstToken i.val = true) (ht : s.tokenFree i.val = true) :
    exec (.rampTokenGrant i) s =
      .next (({ s with pwr := { s.pwr with tokens := s.pwr.tokens.filter (fun j => j != i.val) } } : State).rampRegs).settle :=
  occurs_of (by rw [hf, ht]; rfl) _

theorem exec_rampEnd {i : IslandId} {v : Nat} (ht : (s.island i.val).target = some v) (hr : s.ramping.contains i.val = true) :
    exec (.rampEnd i) s = .next (s.rampDone i.val v).progress.settle := by
  change execRampEnd i s = _
  rw [execRampEnd, ht]
  exact happens_of hr _

section Running

variable (hl : s.live = true) (hp : s.pwr.stopped = none) {i : Fin 32}
include hl hp

theorem exec_envHoldExpiry (ht : (s.island i.val).target = none) (hc : s.committed i.val < s.envelope i.val) :
    exec (.envHoldExpiry i) s = .next (s.requestRamp i.val (s.committed i.val)).settle :=
  occurs_of (by rw [hl, hp, ht, decide_eq_true hc]; rfl) _

theorem exec_lendOffer (he : s.enabled (pSYN (144 + i.val / 8)) = true) (hc : s.rf (pSYN (144 + i.val / 8)) 0x180 1 0 = 1)
    (hn : (s.island i.val).lends = false) (hd : s.floorDemand i.val < s.capCeiling i.val) (hr : s.rests i.val = true) :
    exec (.lendOffer i) s = .next ((s.setIsland i.val { s.island i.val with lends := true }).requestRamp i.val
      (s.floorDemand i.val)).settle :=
  occurs_of (by rw [hl, hp, he, hc, hn, decide_eq_true hd, hr]; rfl) _

end Running

/-! ## Power stops (R439, R444 to R446, R509, R515) -/

section Supplied

variable (hp : s.board.pwrgood = true)
include hp

/-- A fall of PWRGOOD engages the bleed (R439). -/
theorem exec_pwrgoodFall :
    let t := s.orderStop 5 0
    exec .pwrgoodFall s = .next ({ t with
      board := { t.board with pwrgood := false }
      pwr := { t.pwr with bleed := true } } : State).progress.settle :=
  happens_of hp _

theorem exec_vinUv (h : 1 ∉ s.pwr.present) : exec .vinUv s = .next (s.orderStop 1 0).progress.settle :=
  happens_of (by simp [hp, h]) _

theorem exec_vinOv (h : 2 ∉ s.pwr.present) : exec .vinOv s = .next (s.orderStop 2 0).progress.settle :=
  happens_of (by simp [hp, h]) _

theorem exec_ivrOc (i : IslandId) : exec (.ivrOc i) s = .next (s.overcurrent i.val).progress.settle := happens_of hp _

/-- A stop whose cause is gone is cleared, and ALERT_N released where nothing else asserts it (R446, R509). -/
theorem exec_powerStopClear (h : s.pwr.present = [])
    (hc : s.pwr.stopped = some 1 ∨ s.pwr.stopped = some 2 ∨ s.pwr.stopped = some 3) :
    exec .powerStopClear s = .next ({ s with
      pwr := { s.pwr with stopped := none }
      board := { s.board with alert := s.board.alert && !s.alertFree } } : State).progress.settle :=
  happens_of (by rcases hc with hc | hc | hc <;> rw [hp, h, hc] <;> rfl) _

end Supplied

/-- Without VSTBY the bleed is not guaranteed (R515). -/
theorem exec_vstbyLoss (hv : s.board.vstby = true) (hp : s.board.pwrgood = false) :
    exec .vstbyLoss s = .next ({ s with
      free := s.free + 1
      board := { s.board with
        pwrgood := false
        vstby := false }
      pwr := { s.pwr with bleed := Config.freeBool s.free } } : State).progress.settle := by
  change execVstbyLoss s = _
  rw [execVstbyLoss, hp]
  exact happens_of hv _

theorem exec_vstbyGood (hv : s.board.vstby = false) :
    exec .vstbyGood s = .next ({ s with board := { s.board with vstby := true } } : State).settle :=
  occurs_of (by rw [hv]; rfl) _

end Power

/-- Settles O50, row by row. -/
theorem powerRows : Obligations.PowerRows := fun _ =>
  ⟨fun hp hs => ⟨fun _ _ _ j => exec_powerWindow hp hs j, fun d _ => exec_thermalSample hp hs d⟩, fun _ => exec_rampTokenGrant,
    fun _ _ => exec_rampEnd, fun _ hl hp => ⟨exec_envHoldExpiry hl hp, exec_lendOffer hl hp⟩⟩

/-- Settles O51, row by row. The numbers of the causes are those of R444; that VSTBY_LOSS leaves the bleed open is R515, and when ALERT_N
is released R509 (entry 40 of the log). A loss of VSTBY with PWRGOOD high is left out of the statement. -/
theorem powerStopRows : Obligations.PowerStopRows := fun _ =>
  ⟨fun hp => ⟨exec_pwrgoodFall hp, exec_vinUv hp, exec_vinOv hp, exec_ivrOc hp, exec_powerStopClear hp⟩,
    fun hv hp => ⟨_, exec_vstbyLoss hv hp⟩, exec_vstbyGood⟩

end Sys2Proof.Machine
end

section
/-! SUPPORT. The proof of the statement about what one step takes (95_what_each_step_holds). -/

namespace Sys2Proof.Machine

/-- Settles O1, by the two cases of the queue. That an idle package changes nothing is entry 1 of the log. -/
theorem stepTakesTheFrontCommand : Obligations.StepTakesTheFrontCommand :=
  ⟨fun s c r h => by rw [step, h], fun s h => by rw [step, h]⟩

end Sys2Proof.Machine
end
